-- ==== Sys2Proof/Word.lean ====
section
/-! DEFINITION. The widths the engine works in (00_scope.md R8, R10): unsigned bit vectors only. -/

namespace Sys2Proof

/-- A 64-bit register value: DIN, DOUT, STATUS, a CMD word, a master key, a block (R8, R20). -/
abbrev Word := BitVec 64

/-- A 32-bit half-block (R8). -/
abbrev Half := BitVec 32

/-- A 28-bit key-schedule half, C or D (R8). -/
abbrev KeyHalf := BitVec 28

/-- A 48-bit round key (R8). -/
abbrev RoundKey := BitVec 48

/-- The round-key file RK[0..15] (R24): index i is round key i of the generation order. -/
abbrev RoundKeys := Vector RoundKey 16

end Sys2Proof
end

