-- ==== Sys2Proof/Syntax.lean ====
section
/-! DEFINITION. The command set: one constructor per row of spec/opcode_table.json (R71, R72, R77). -/

namespace Sys2Proof

/-- A command the engine runs when the host writes its word to CMD. -/
inductive Instr where
  /-- CHKPAR: validate the parity of the key in DIN (R147). -/
  | chkpar
  /-- LOADKEY.E: build and store the schedule, direction Encrypt (R148). -/
  | loadkeyE
  /-- LOADKEY.D: build and store the schedule, direction Decrypt (R148). -/
  | loadkeyD
  /-- XFORM: transform the block in DIN (R207). -/
  | xform
  /-- RKNEXT: deliver the next round key of the host-visible traversal (R152). -/
  | rknext
  /-- RKREWIND: begin a new traversal (R153). -/
  | rkrewind
  /-- FFUNC: evaluate F with RK[kidx], an absolute index (R188). Every value of the four bits is legal. -/
  | ffunc (kidx : BitVec 4)
  /-- SBOXQ: look up one S-box entry (R121). `mod` is the whole modifier: BOX = mod[2:0], and mod[3] must be 0. -/
  | sboxq (mod : BitVec 4)
  /-- PERM IP (R120, table 0 of R101). -/
  | permIp
  /-- PERM FP (R120, table 1 of R101). -/
  | permFp
  /-- PERM PC1 (R120, table 2 of R101). -/
  | permPc1
  /-- PERM PC2 (R120, table 3 of R101). -/
  | permPc2
  /-- PERM E (R120, table 4 of R101). -/
  | permE
  /-- PERM P (R120, table 5 of R101). -/
  | permP
deriving DecidableEq, Repr

end Sys2Proof
end

