-- ==== Sys2Proof/WellFormed.lean ====
section
/-! DEFINITION. Which terms of `Instr` are legal commands (R72).
The direction of LOADKEY and the table of PERM are constructors, and KIDX of FFUNC has four bits of which every value is
legal, so the one check left is the modifier of SBOXQ. -/

namespace Sys2Proof

/-- The legal-value column of R72, constructor by constructor. -/
def Instr.wellFormed (i : Instr) : Bool :=
  match i with
  | .chkpar => true
  | .loadkeyE => true
  | .loadkeyD => true
  | .xform => true
  | .rknext => true
  | .rkrewind => true
  | .ffunc _ => true
  | .sboxq mod => !mod[3]
  | .permIp => true
  | .permFp => true
  | .permPc1 => true
  | .permPc2 => true
  | .permE => true
  | .permP => true

end Sys2Proof
end

