-- ==== Sys2Proof/Decode.lean ====
section
/-! DEFINITION. The decoder of R76, total on every 64-bit CMD value, and the encoder written from R70 to R72. -/

namespace Sys2Proof

/-- Why a CMD value decodes to ILLEGAL. The engine reports ILLEGAL_COMMAND for all three alike (R231). -/
inductive Illegal where
  /-- Some bit of 63:8 is set (R75). -/
  | reservedBits
  /-- OPC is 0x0 or 0x9 to 0xF (R73). -/
  | opcode
  /-- A legal OPC with a MOD value that R72 marks illegal (R74). -/
  | modifier
deriving DecidableEq, Repr

/-- RSVD, bits 63:8 of a CMD value (R70). -/
def fieldRsvd (w : Word) : BitVec 56 := w.extractLsb' 8 56

/-- OPC, bits 7:4 of a CMD value (R70). -/
def fieldOpc (w : Word) : BitVec 4 := w.extractLsb' 4 4

/-- MOD, bits 3:0 of a CMD value (R70). -/
def fieldMod (w : Word) : BitVec 4 := w.extractLsb' 0 4

/-- A command whose only legal modifier is 0x0 (R72). -/
def decodePlain (i : Instr) (mod : BitVec 4) : Except Illegal Instr :=
  if mod = 0 then .ok i else .error .modifier

/-- LOADKEY: MOD[3:1] is 000 and MOD[0] is the direction, 0 Encrypt and 1 Decrypt (R72). -/
def decodeLoadkey (mod : BitVec 4) : Except Illegal Instr :=
  if mod.extractLsb' 1 3 = 0 then .ok (if mod[0] then .loadkeyD else .loadkeyE) else .error .modifier

/-- SBOXQ: MOD[3] is 0 and MOD[2:0] is the box (R72). -/
def decodeSboxq (mod : BitVec 4) : Except Illegal Instr :=
  if mod[3] then .error .modifier else .ok (.sboxq mod)

/-- PERM: MOD is the table id of R101, 0 to 5 (R72). -/
def decodePerm (mod : BitVec 4) : Except Illegal Instr :=
  match mod.toNat with
  | 0 => .ok .permIp
  | 1 => .ok .permFp
  | 2 => .ok .permPc1
  | 3 => .ok .permPc2
  | 4 => .ok .permE
  | 5 => .ok .permP
  | _ => .error .modifier

/-- The opcode map of R71 over the two low fields. -/
def decodeFields (opc mod : BitVec 4) : Except Illegal Instr :=
  match opc.toNat with
  | 0x1 => decodePlain .chkpar mod
  | 0x2 => decodeLoadkey mod
  | 0x3 => decodePlain .xform mod
  | 0x4 => decodePlain .rknext mod
  | 0x5 => decodePlain .rkrewind mod
  | 0x6 => .ok (.ffunc mod)
  | 0x7 => decodeSboxq mod
  | 0x8 => decodePerm mod
  | _ => .error .opcode

/-- `decode(w)` of R76. -/
def decode (w : Word) : Except Illegal Instr :=
  if fieldRsvd w = 0 then decodeFields (fieldOpc w) (fieldMod w) else .error .reservedBits

/-- The one command format of R70, with RSVD = 0. -/
def commandWord (opc mod : BitVec 4) : Word := 0#56 ++ opc ++ mod

/-- The word of a well-formed command (R71, R72). -/
def encode (i : Instr) : Word :=
  match i with
  | .chkpar => commandWord 0x1 0x0
  | .loadkeyE => commandWord 0x2 0x0
  | .loadkeyD => commandWord 0x2 0x1
  | .xform => commandWord 0x3 0x0
  | .rknext => commandWord 0x4 0x0
  | .rkrewind => commandWord 0x5 0x0
  | .ffunc kidx => commandWord 0x6 kidx
  | .sboxq mod => commandWord 0x7 mod
  | .permIp => commandWord 0x8 0x0
  | .permFp => commandWord 0x8 0x1
  | .permPc1 => commandWord 0x8 0x2
  | .permPc2 => commandWord 0x8 0x3
  | .permE => commandWord 0x8 0x4
  | .permP => commandWord 0x8 0x5

/-- The CMD value whose bits are `w`, of which the opcode table numbers `nbits` (every bit above is 0). -/
def tableWord (nbits w : Nat) : Word := BitVec.ofNat 64 (w % 2 ^ nbits)

/-- What the decoder reads from an instruction whose bits are `w`, as spec/opcode_table.json numbers them. A command is
one 64-bit write (R70), so there is one word and no byte order to choose (R53). -/
def decodeTableWord (nbits w : Nat) : Option Instr :=
  match decode (tableWord nbits w) with
  | .ok i => some i
  | .error _ => none

end Sys2Proof
end

