-- ==== Sys2Proof/Config.lean ====
section
/-! DEFINITION. What an implementation fixes, and the values the spec leaves open.
The base address `DES_BASE` of the window is a parameter too (R9). It stands in `Machine.State` as the field `desBase`,
so that every statement about all states is a statement about every base address (log entry 1).
`N_ENGINES` is the length of `Machine.Platform.engines` (log entry 11). -/

namespace Sys2Proof

/-- The size in bytes of the register window (R50, R51). -/
def Config.windowBytes : Nat := 0x20

/-- The only admitted access width, in bytes (R54). -/
def Config.accessBytes : Nat := 8

/-- FREE VALUE: the contents of RK after a failed LOADKEY and after the reset input, which R24, R149 and R260 leave
unspecified (93_implementation_defined.md I1). `base` is the engine's `State.desBase`, by which R244 tells engines apart,
and `n` its `State.freeCount`, so neither two engines of a platform nor two draws of one engine provably hold the same.
DESIGN CHOICE (log entry 3): the arguments are all it depends on, so two runs that draw at one base and one count hold
the same RK, which the spec does not say. -/
opaque Config.unspecifiedRk : (base n : Nat) → RoundKeys

/-- OPEN PARAMETER `CMD_LATENCY` (R9, R269): the time the command with this CMD word takes. No rule depends on it, and
nothing in the model reads it (log entry 10). -/
opaque Config.cmdLatency : Word → Nat

end Sys2Proof
end

