-- ==== Sys2Proof/Machine/State.lean ====
section
/-! DEFINITION. The state of one engine (10_state.md R20), the host program it serves, and the reasons a step stops.
`desBase`, `host`, `reads`, `completions` and `freeCount` are the model's own fields (log entries 1, 3, 4, 5). -/

namespace Sys2Proof.Machine

/-- The result codes of STATUS.ERR (R26, R231). Codes 6 to 15 are never written, so they have no constructor. -/
inductive Err where
  | ok
  | invalidKey
  | scheduleExhausted
  | notKeyed
  | illegalCommand
  | halted
deriving DecidableEq, Repr

/-- STATUS.DIR (R28): 0 is Encrypt and 1 is Decrypt (R72). -/
inductive Direction where
  | encrypt
  | decrypt
deriving DecidableEq, Repr

/-- One thing the host does to the engine (R17). An address is a host-bus byte address. The value of a write that is
not 8 bytes wide is never looked at, because the access is refused (R55). -/
inductive HostEvent where
  /-- `MemWrite(addr, nbytes, value)` (R12). -/
  | write (addr nbytes : Nat) (value : Word)
  /-- `MemRead(addr, nbytes)` (R12). -/
  | read (addr nbytes : Nat)
  /-- The reset input (R260). -/
  | reset
deriving DecidableEq, Repr

/-- One engine together with the host that drives it. -/
structure State where
  /-- `DES_BASE`, the base address of the register window (R9, R50): a parameter, changed by no step. -/
  desBase : Nat
  /-- DIN, the operand register (R21). -/
  din : Word
  /-- DOUT, the result register (R22). -/
  dout : Word
  /-- RK[0..15], the round-key file (R24). -/
  rk : RoundKeys
  /-- STATUS.ERR (R26). -/
  err : Err
  /-- STATUS.KEYED (R27). -/
  keyed : Bool
  /-- STATUS.DIR (R28). -/
  dir : Direction
  /-- STATUS.FATAL (R30). -/
  fatal : Bool
  /-- STATUS.CUR, the host-visible cursor, 0 to 16 (R31): values 17 to 31 of its five bits never occur. -/
  cur : Fin 17
  /-- The host's accesses still to be performed, in program order (R16, R29, R59). -/
  host : List HostEvent
  /-- The values the host's reads have returned, oldest first (R18). -/
  reads : List Word
  /-- The code each command completed with, oldest first (R18, R233). -/
  completions : List Err
  /-- How many free values have been drawn: with `desBase`, the argument of the next one (log entry 3). -/
  freeCount : Nat
deriving DecidableEq, Repr

/-- Why a step stops as faulted. -/
inductive Fault where
  /-- Raised by `Machine.perform` for a host access that R54 does not admit, as R55 asks of a model. SAFE: the model
  stops where the spec's engine refuses the access and goes on. -/
  | busError (addr : Nat)
deriving DecidableEq, Repr

/-- Why a command has no meaning here. -/
inductive Refusal where
  /-- Raised by an arm of `exec` for a command not modelled yet. SAFE: no next state is claimed. No arm raises it. -/
  | notModelled (mnemonic : String)
deriving DecidableEq, Repr

/-- The engine right after reset (R260, R20). RK is unspecified there: zero is the model's named value (log entry 2).
`desBase` is a parameter: 0 is the model's named value (log entry 1). The host program is loaded from outside. -/
def State.reset : State where
  desBase := 0
  din := 0
  dout := 0
  rk := Vector.replicate 16 0
  err := .ok
  keyed := false
  dir := .encrypt
  fatal := false
  cur := 0
  host := []
  reads := []
  completions := []
  freeCount := 0

end Sys2Proof.Machine
end

