-- ==== Sys2Proof/Machine/Bits.lean ====
section
/-! DEFINITION. The bit operations of the spec's notation (00_scope.md R10, R11). -/

namespace Sys2Proof.Machine

/-- `rol_W(x, s) = ((x << s) | (x >> (W - s)))[W-1:0]` (R10). -/
def rol {w : Nat} (x : BitVec w) (s : Nat) : BitVec w := (x <<< s) ||| (x >>> (w - s))

/-- `popcount(v)`, the number of one bits of v (R10). -/
def popcount {w : Nat} (v : BitVec w) : Nat := (List.range w).countP fun i => v.getLsbD i

/-- `dbit_N(v, p) = v[N - p]`: DES bit p, counted from 1 at the most significant bit (R11). -/
def dbit {n : Nat} (v : BitVec n) (p : Nat) : Bool := v.getLsbD (n - p)

/-- Byte b of a 64-bit value, `v[8*b+7 : 8*b]` (R140). -/
def byteAt (v : Word) (b : Nat) : BitVec 8 := v.extractLsb' (8 * b) 8

end Sys2Proof.Machine
end

