-- ==== Sys2Proof/Machine/Operands.lean ====
section
/-! DEFINITION. Where a command finds its operand (R80), how wide its result is in DOUT (R81), and the big-endian
reading of an 8-byte buffer (R52). The bits of DIN above a narrow operand are ignored and raise nothing. -/

namespace Sys2Proof.Machine

/-- The operand of CHKPAR, LOADKEY and XFORM: DIN[63:0] (R80). -/
def operandWord (s : State) : Word := s.din

/-- The operand of FFUNC: H = DIN[31:0] (R80). -/
def operandHalf (s : State) : Half := s.din.extractLsb' 0 32

/-- The operand of SBOXQ: X = DIN[5:0] (R80). -/
def operandSix (s : State) : BitVec 6 := s.din.extractLsb' 0 6

/-- The operand of PERM: V = DIN[N-1:0], N the table's input width (R80, R120). -/
def operandFor (t : TableId) (s : State) : BitVec t.inWidth := s.din.extractLsb' 0 t.inWidth

/-- BOX = MOD[2:0] of SBOXQ, an unsigned index (R72). -/
def boxOf (mod : BitVec 4) : Fin 8 := (mod.extractLsb' 0 3).toFin

/-- KIDX = MOD[3:0] of FFUNC, an unsigned absolute index into RK (R72). -/
def kidxOf (mod : BitVec 4) : Fin 16 := mod.toFin

/-- `zext_64` of a result (R10, R81). -/
def zext64 {w : Nat} (v : BitVec w) : Word := v.setWidth 64

/-- `b0 || b1 || ... || b7`, b0 the first byte of the buffer (R52). -/
def blockOfBytes (b : Vector (BitVec 8) 8) : Word :=
  b[0] ++ b[1] ++ b[2] ++ b[3] ++ b[4] ++ b[5] ++ b[6] ++ b[7]

/-- The reverse conversion of a result (R52). -/
def bytesOfBlock (v : Word) : Vector (BitVec 8) 8 :=
  #v[byteAt v 7, byteAt v 6, byteAt v 5, byteAt v 4, byteAt v 3, byteAt v 2, byteAt v 1, byteAt v 0]

end Sys2Proof.Machine
end

