-- ==== Sys2Proof/Machine/Flags.lean ====
section
/-! DEFINITION. The STATUS word (R25) and the computation of its fields. The engine has no other flags (R36). -/

namespace Sys2Proof.Machine

/-- The numeric code of a result (R26). -/
def Err.code (e : Err) : BitVec 4 :=
  match e with
  | .ok => 0
  | .invalidKey => 1
  | .scheduleExhausted => 2
  | .notKeyed => 3
  | .illegalCommand => 4
  | .halted => 5

/-- The direction bit: 0 Encrypt, 1 Decrypt (R28, R72). -/
def Direction.bit (d : Direction) : BitVec 1 :=
  match d with
  | .encrypt => 0
  | .decrypt => 1

/-- STATUS as the host reads it (R25): bits 63:13 and bit 7 are reserved and read 0 (R32). -/
def statusWord (s : State) : Word :=
  0#51 ++ BitVec.ofNat 5 s.cur.val ++ 0#1 ++ BitVec.ofBool s.fatal ++ s.dir.bit ++ BitVec.ofBool s.keyed ++ s.err.code

/-- A command ends with `code` in STATUS.ERR (R26), and the model's history of completions records it (R18, R233). -/
def State.complete (s : State) (code : Err) : State :=
  { s with err := code, completions := s.completions ++ [code] }

/-- The codes other than OK that commands completed with: the fault history of R233. -/
def State.faultHistory (s : State) : List Err := s.completions.filter fun e => decide (e ≠ Err.ok)

end Sys2Proof.Machine
end

