-- ==== Sys2Proof/Machine/Ops.lean ====
section
/-! DEFINITION. The operations the commands share: ending a command, its guards, the writes of the round-key state, the
register window and the reset input. -/

namespace Sys2Proof.Machine

/-! ## Ending a command -/

/-- `raise Err(code)`, this engine's only exception (R232, R239): STATUS.ERR holds the code and the command ends. No
state is saved, no mode changes and no vector is taken, so there is no return beside it (R240). -/
def State.raiseErr (s : State) (code : Err) : State := s.complete code

/-- A command that produces no result completes: `x[STATUS].ERR <- OK` (R233). -/
def State.succeed (s : State) : State := s.complete .ok

/-- A command that produces a result completes: DOUT holds it, and ERR is OK (R22, R81). -/
def State.deliver (s : State) (result : Word) : State := { s with dout := result }.succeed

/-! ## Guards, in the order of R235 -/

/-- `if x[STATUS].FATAL == 1 : raise Err(HALTED)`, the first check of every command (R235, R236). -/
def unlessHalted (body : State → State) (s : State) : State :=
  if s.fatal then s.raiseErr .halted else body s

/-- `if x[STATUS].KEYED == 0 : raise Err(NOT_KEYED)` (R231). -/
def whenKeyed (body : State → State) (s : State) : State :=
  if s.keyed then body s else s.raiseErr .notKeyed

/-- The outcome of a CMD value that decodes to ILLEGAL (R73, R74, R75), HALTED taking precedence (R235). -/
def illegalCommand (s : State) : State := unlessHalted (fun s => s.raiseErr .illegalCommand) s

/-! ## The round-key state -/

/-- A free value for RK, and the counter past it (R24, 93_implementation_defined.md I1). DESIGN CHOICE (log entry 3): the
value is drawn at this engine's base and count, so states equal in both draw the same RK. -/
def State.forgetRk (s : State) : State :=
  { s with rk := Config.unspecifiedRk s.desBase s.freeCount, freeCount := s.freeCount + 1 }

/-- The discarding of the schedule by a LOADKEY whose key fails parity (R148, R149). -/
def State.unkey (s : State) : State :=
  { s.forgetRk with keyed := false, dir := .encrypt, cur := 0 }

/-- The effect of a LOADKEY whose key passes: the new schedule and direction, the cursor rewound (R148). -/
def State.install (s : State) (schedule : RoundKeys) (d : Direction) : State :=
  { s with rk := schedule, keyed := true, dir := d, cur := 0 }

/-! ## The register window -/

/-- The four registers of the window (R51). -/
inductive Reg where
  | din | dout | status | cmd
deriving DecidableEq, Repr

/-- The offset of a register in the window (R51). -/
def Reg.offset (r : Reg) : Nat :=
  match r with
  | .din => 0x00
  | .dout => 0x08
  | .status => 0x10
  | .cmd => 0x18

/-- The register at an offset of the window. There are no other addresses in it (R51). -/
def regAt (off : Nat) : Option Reg :=
  if off = Reg.offset .din then some .din
  else if off = Reg.offset .dout then some .dout
  else if off = Reg.offset .status then some .status
  else if off = Reg.offset .cmd then some .cmd
  else none

/-- The register an access of `nbytes` bytes at `addr` reaches, where the window at `base` admits it (R54). -/
def windowReg (base addr nbytes : Nat) : Option Reg :=
  if nbytes = Config.accessBytes ∧ base ≤ addr ∧ addr < base + Config.windowBytes then regAt (addr - base) else none

/-- What a read of the register returns. CMD holds no state and reads 0 (R51, R56). -/
def readReg (r : Reg) (s : State) : Word :=
  match r with
  | .din => s.din
  | .dout => s.dout
  | .status => statusWord s
  | .cmd => 0

/-- A read gives the host a value and changes nothing of the engine (R56). -/
def State.giveHost (s : State) (v : Word) : State := { s with reads := s.reads ++ [v] }

/-! ## Reset -/

/-- The reset input (R260): every piece of engine state takes its reset value, and RK becomes unspecified. It is not an
event of the host's program order to clear: the parameter, the accesses still to come and the observation stay. -/
def State.resetEngine (s : State) : State :=
  { s.forgetRk with din := 0, dout := 0, err := .ok, keyed := false, dir := .encrypt, fatal := false, cur := 0 }

end Sys2Proof.Machine
end

