-- ==== Sys2Proof/Machine/KeySchedule.lean ====
section
/-! DEFINITION. The key scheduler (41_key_schedule.md): parity, schedule, direction, and the commands CHKPAR, LOADKEY,
RKNEXT and RKREWIND. -/

namespace Sys2Proof.Machine

/-- `parity_ok(K)`: every byte has an odd number of one bits (R140). -/
def parityOk (k : Word) : Bool := (List.range 8).all fun b => popcount (byteAt k b) % 2 == 1

/-- SHIFTS, the left-rotation amounts of rounds 0 to 15 (R142; 90_conflicts.md C1). -/
def shifts : List Nat := [1, 1, 2, 2, 2, 2, 2, 2, 1, 2, 2, 2, 2, 2, 2, 1]

/-- The loop of `build_schedule` from the halves C and D: the rotations accumulate (R143). -/
def scheduleFrom (c d : KeyHalf) (amounts : List Nat) : List RoundKey :=
  match amounts with
  | [] => []
  | a :: rest => permute 48 tablePc2 (rol c a ++ rol d a) :: scheduleFrom (rol c a) (rol d a) rest

theorem scheduleFrom_length (amounts : List Nat) :
    ∀ c d : KeyHalf, (scheduleFrom c d amounts).length = amounts.length := by
  induction amounts with
  | nil => intro c d; rfl
  | cons a rest ih => intro c d; simp [scheduleFrom, ih]

/-- C0 and D0: the halves of PC-1's output (R143). -/
def keyHalves (k : Word) : KeyHalf × KeyHalf :=
  let cd := permute 56 tablePc1 k
  (cd.extractLsb' 28 28, cd.extractLsb' 0 28)

/-- `build_schedule(K)` as a list, round key 0 first (R143). -/
def scheduleList (k : Word) : List RoundKey := scheduleFrom (keyHalves k).1 (keyHalves k).2 shifts

theorem scheduleList_length (k : Word) : (scheduleList k).length = 16 := scheduleFrom_length shifts _ _

/-- `build_schedule(K)` (R143). It reads nothing but K (R144). -/
def buildSchedule (k : Word) : RoundKeys := ⟨(scheduleList k).toArray, scheduleList_length k⟩

/-- `key_for_step(dir, n)`: RK[n] for Encrypt and RK[15 - n] for Decrypt (R150). -/
def keyForStep (d : Direction) (rk : RoundKeys) (n : Fin 16) : RoundKey :=
  match d with
  | .encrypt => rk[n]
  | .decrypt => rk[15 - n]

/-- CHKPAR (R147). -/
def execChkpar (s : State) : Host.Outcome State Fault Refusal :=
  .next (unlessHalted (fun s => if parityOk (operandWord s) then s.succeed else s.raiseErr .invalidKey) s)

/-- LOADKEY in direction `d` (R148). The parity check comes before any derivation, and a failure discards the schedule
(R149). -/
def loadKey (d : Direction) (s : State) : State :=
  unlessHalted
    (fun s =>
      if parityOk (operandWord s) then (s.install (buildSchedule (operandWord s)) d).succeed
      else s.unkey.raiseErr .invalidKey)
    s

/-- LOADKEY.E (R148). -/
def execLoadkeyE (s : State) : Host.Outcome State Fault Refusal := .next (loadKey .encrypt s)

/-- LOADKEY.D (R148). -/
def execLoadkeyD (s : State) : Host.Outcome State Fault Refusal := .next (loadKey .decrypt s)

/-- RKNEXT on a keyed engine (R152): at CUR = 16 the traversal is exhausted, which is fatal; otherwise it delivers the
key of step CUR and advances the cursor. -/
def deliverNextKey (s : State) : State :=
  if h : s.cur.val < 16 then
    { s with cur := ⟨s.cur.val + 1, by omega⟩ }.deliver (zext64 (keyForStep s.dir s.rk ⟨s.cur.val, h⟩))
  else { s with fatal := true }.raiseErr .scheduleExhausted

/-- RKNEXT (R152). -/
def execRknext (s : State) : Host.Outcome State Fault Refusal := .next (unlessHalted (whenKeyed deliverNextKey) s)

/-- RKREWIND (R153). -/
def execRkrewind (s : State) : Host.Outcome State Fault Refusal :=
  .next (unlessHalted (whenKeyed fun s => { s with cur := 0 }.succeed) s)

end Sys2Proof.Machine
end

