-- ==== Sys2Proof/Machine/RoundFunction.lean ====
section
/-! DEFINITION. The F-function (42_round_function.md) and the command FFUNC. -/

namespace Sys2Proof.Machine

/-- Chunk j of the mixed value, `X[47-6j : 42-6j]`, most significant first (R183). -/
def chunk (x : BitVec 48) (j : Fin 8) : BitVec 6 := x.extractLsb' (42 - 6 * j.val) 6

/-- The eight S-box outputs, S1's in bits 31:28 and S8's in bits 3:0 (R184, R185). -/
def substituteAll (x : BitVec 48) : Half :=
  substitute 0 (chunk x 0) ++ substitute 1 (chunk x 1) ++ substitute 2 (chunk x 2) ++ substitute 3 (chunk x 3) ++
    substitute 4 (chunk x 4) ++ substitute 5 (chunk x 5) ++ substitute 6 (chunk x 6) ++ substitute 7 (chunk x 7)

/-- `F(H, K)`: expand, mix with the key, substitute, permute (R180 to R186). -/
def roundF (h : Half) (k : RoundKey) : Half :=
  permute 32 tableP (substituteAll (permute 48 tableE h ^^^ k))

/-- FFUNC (R188): F of DIN[31:0] and RK[kidx]. The index is absolute, and CUR is neither read nor moved. -/
def execFfunc (kidx : BitVec 4) (s : State) : Host.Outcome State Fault Refusal :=
  .next (unlessHalted (whenKeyed fun s => s.deliver (zext64 (roundF (operandHalf s) s.rk[kidxOf kidx]))) s)

end Sys2Proof.Machine
end

