-- ==== Sys2Proof/Machine/BlockTransform.lean ====
section
/-! DEFINITION. The 16-round Feistel transform of one block (43_block_transform.md) and the command XFORM. -/

namespace Sys2Proof.Machine

/-- The rounds over the keys still to be drawn: `newR = L ^ F(R, K); L = R; R = newR` (R202). -/
def feistel (keys : List RoundKey) (l r : Half) : Half × Half :=
  match keys with
  | [] => (l, r)
  | k :: rest => feistel rest r (l ^^^ roundF r k)

/-- The keys of the sixteen rounds in the order they are drawn: the private cursor of one XFORM (R154, R204). -/
def keysInOrder (d : Direction) (rk : RoundKeys) : List RoundKey := (List.finRange 16).map (keyForStep d rk)

/-- `process_block(B, dir, RK)` (R200): IP, sixteen rounds, and FP of R16 || L16 (R203; 90_conflicts.md C3). -/
def processBlock (b : Word) (d : Direction) (rk : RoundKeys) : Word :=
  let t := permute 64 tableIp b
  let lr := feistel (keysInOrder d rk) (t.extractLsb' 32 32) (t.extractLsb' 0 32)
  permute 64 tableFp (lr.2 ++ lr.1)

/-- XFORM (R207): it writes only DOUT and STATUS.ERR (R208). -/
def execXform (s : State) : Host.Outcome State Fault Refusal :=
  .next (unlessHalted (whenKeyed fun s => s.deliver (processBlock (operandWord s) s.dir s.rk)) s)

end Sys2Proof.Machine
end

