-- ==== Sys2Proof/Machine/Diagnostics.lean ====
section
/-! DEFINITION. The diagnostic commands PERM and SBOXQ (R120, R121). Neither needs a key. -/

namespace Sys2Proof.Machine

/-- PERM through table `t` (R120). -/
def permCommand (t : TableId) (s : State) : State :=
  unlessHalted (fun s => s.deliver (zext64 (permute t.outWidth t.entries (operandFor t s)))) s

/-- PERM IP (R120). -/
def execPermIp (s : State) : Host.Outcome State Fault Refusal := .next (permCommand .ip s)

/-- PERM FP (R120). -/
def execPermFp (s : State) : Host.Outcome State Fault Refusal := .next (permCommand .fp s)

/-- PERM PC1 (R120). -/
def execPermPc1 (s : State) : Host.Outcome State Fault Refusal := .next (permCommand .pc1 s)

/-- PERM PC2 (R120). -/
def execPermPc2 (s : State) : Host.Outcome State Fault Refusal := .next (permCommand .pc2 s)

/-- PERM E (R120). -/
def execPermE (s : State) : Host.Outcome State Fault Refusal := .next (permCommand .e s)

/-- PERM P (R120). -/
def execPermP (s : State) : Host.Outcome State Fault Refusal := .next (permCommand .p s)

/-- SBOXQ (R121). A modifier with bit 3 set is ILLEGAL_COMMAND in the rule's own pseudocode; the decoder never gives
one (R72). -/
def execSboxq (mod : BitVec 4) (s : State) : Host.Outcome State Fault Refusal :=
  .next
    (unlessHalted
      (fun s =>
        if mod[3] then s.raiseErr .illegalCommand
        else s.deliver (zext64 (substitute (boxOf mod) (operandSix s))))
      s)

end Sys2Proof.Machine
end

