-- ==== Sys2Proof/Machine/Dispatch.lean ====
section
/-! DEFINITION. One arm per command (R71). -/

namespace Sys2Proof.Machine

def exec (i : Instr) (s : State) : Host.Outcome State Fault Refusal :=
  match i with
  | .chkpar => Sys2Proof.Machine.execChkpar s
  | .loadkeyE => Sys2Proof.Machine.execLoadkeyE s
  | .loadkeyD => Sys2Proof.Machine.execLoadkeyD s
  | .xform => Sys2Proof.Machine.execXform s
  | .rknext => Sys2Proof.Machine.execRknext s
  | .rkrewind => Sys2Proof.Machine.execRkrewind s
  | .ffunc kidx => Sys2Proof.Machine.execFfunc kidx s
  | .sboxq mod => Sys2Proof.Machine.execSboxq mod s
  | .permIp => Sys2Proof.Machine.execPermIp s
  | .permFp => Sys2Proof.Machine.execPermFp s
  | .permPc1 => Sys2Proof.Machine.execPermPc1 s
  | .permPc2 => Sys2Proof.Machine.execPermPc2 s
  | .permE => Sys2Proof.Machine.execPermE s
  | .permP => Sys2Proof.Machine.execPermP s

end Sys2Proof.Machine
end

