-- ==== Sys2Proof/Machine/HostAccess.lean ====
section
/-! DEFINITION. What one event of the host does (20_memory.md R50 to R60, 00_scope.md R17). -/

namespace Sys2Proof.Machine

/-- A CMD write of `w` runs `decode(w)` to completion as one atomic step (R57, R76). -/
def runCommand (w : Word) (s : State) : Host.Outcome State Fault Refusal :=
  match decode w with
  | .ok i => exec i s
  | .error _ => .next (illegalCommand s)

/-- An admitted write (R57): DIN stores the value, DOUT and STATUS ignore it, CMD runs a command. -/
def writeReg (r : Reg) (v : Word) (s : State) : Host.Outcome State Fault Refusal :=
  match r with
  | .din => .next { s with din := v }
  | .dout => .next s
  | .status => .next s
  | .cmd => runCommand v s

/-- One host event. An access the window does not admit is refused, which a model represents as a fault of the host
step (R55). -/
def perform (e : HostEvent) (s : State) : Host.Outcome State Fault Refusal :=
  match e with
  | .write addr nbytes v =>
    match windowReg s.desBase addr nbytes with
    | some r => writeReg r v s
    | none => .fault (.busError addr)
  | .read addr nbytes =>
    match windowReg s.desBase addr nbytes with
    | some r => .next (s.giveHost (readReg r s))
    | none => .fault (.busError addr)
  | .reset => .next s.resetEngine

/-- The bus write that gives the engine the CMD value `w` (R78). -/
def cmdWrite (base : Nat) (w : Word) : HostEvent := .write (base + Reg.offset .cmd) Config.accessBytes w

end Sys2Proof.Machine
end

