-- ==== Sys2Proof/Machine/Step.lean ====
section
/-! DEFINITION. One step: the host's next event, performed. The engine never starts a step by itself (R16). -/

namespace Sys2Proof.Machine

/-- The oldest pending host event is taken and performed (R59). With none pending the engine is idle and holds all of
its state (R246, log entry 4). -/
def step (s : State) : Host.Outcome State Fault Refusal :=
  match s.host with
  | [] => .next s
  | e :: rest => perform e { s with host := rest }

/-- `s` with the CMD write of an opcode-table word as the host's next event (log entry 4). -/
def State.withFetchWord (s : State) (nbits w : Nat) : State :=
  { s with host := cmdWrite s.desBase (tableWord nbits w) :: s.host }

end Sys2Proof.Machine
end

