-- ==== Sys2Proof/Machine/HostProgram.lean ====
section
/-! DEFINITION. The host-program notation of R78 and the pseudo-instructions of R79, as lists of host events for an
engine whose window stands at `base`. -/

namespace Sys2Proof.Machine

/-- `wr <reg>, v` (R78). -/
def wr (base : Nat) (r : Reg) (v : Word) : HostEvent := .write (base + r.offset) Config.accessBytes v

/-- `rd <reg>` (R78). -/
def rd (base : Nat) (r : Reg) : HostEvent := .read (base + r.offset) Config.accessBytes

/-- A command by its mnemonic: `wr CMD` of its encoding (R78). -/
def issue (base : Nat) (i : Instr) : List HostEvent := [cmdWrite base (encode i)]

/-- A command with its operand: `wr DIN, v` then `wr CMD` (R79, the first seven lines). -/
def issueWith (base : Nat) (i : Instr) (v : Word) : List HostEvent := [wr base .din v, cmdWrite base (encode i)]

/-- `ENCRYPT k, b` (R79). -/
def encryptSequence (base : Nat) (k b : Word) : List HostEvent :=
  issueWith base .loadkeyE k ++ issueWith base .xform b ++ [rd base .dout]

/-- `DECRYPT k, b` (R79). -/
def decryptSequence (base : Nat) (k b : Word) : List HostEvent :=
  issueWith base .loadkeyD k ++ issueWith base .xform b ++ [rd base .dout]

/-- The boot sequence for Encrypt (R263): reset, the key, LOADKEY.E, and a read of STATUS. -/
def bootEncrypt (base : Nat) (k : Word) : List HostEvent :=
  .reset :: issueWith base .loadkeyE k ++ [rd base .status]

/-- The boot sequence for Decrypt (R263). -/
def bootDecrypt (base : Nat) (k : Word) : List HostEvent :=
  .reset :: issueWith base .loadkeyD k ++ [rd base .status]

end Sys2Proof.Machine
end

