-- ==== Sys2Proof/Machine/Platform.lean ====
section
/-! DEFINITION. A platform of N_ENGINES independent engines (R9, R244). Each holds its own complete state and its own
window base, and its `host` list is the host's accesses to it in program order. Accesses to different engines are
unordered (R59), so which engine's next access comes first is plain data: the list `turns` (log entry 11). -/

namespace Sys2Proof.Machine

/-- The engines, and the order in which their next accesses are performed. -/
structure Platform where
  /-- One state per engine. N_ENGINES is the length of this list. -/
  engines : List State
  /-- The engine that moves next, by index, first to last. -/
  turns : List Nat
deriving DecidableEq, Repr

/-- N_ENGINES >= 1, every base is a multiple of 32, and no two windows share an address (R9, R244). -/
def Platform.wf (p : Platform) : Bool :=
  !p.engines.isEmpty && p.engines.all (fun s => s.desBase % Config.windowBytes == 0) &&
    decide (p.engines.Pairwise fun s t => s.desBase ≠ t.desBase)

/-- The engine whose turn it is takes one step. A turn that names no engine does nothing. DESIGN CHOICE (log entry 11): a
BusError of one engine (R55) ends the step of the whole platform, so no other engine moves again; R244 and R55 do not say
what a refused access at one engine does to the others. -/
def Platform.step (p : Platform) : Host.Outcome Platform Fault Refusal :=
  match p.turns with
  | [] => .next p
  | k :: rest =>
    match p.engines[k]? with
    | none => .next { p with turns := rest }
    | some s =>
      match Sys2Proof.Machine.step s with
      | .next t => .next { engines := p.engines.set k t, turns := rest }
      | .fault r => .fault r
      | .refused r => .refused r

end Sys2Proof.Machine
end

