-- ==== Sys2Proof/Safety.lean ====
section
/-! DEFINITION. What counts as a safe run, the invariants of the engine, and the words statements about whole runs use. -/

namespace Sys2Proof.Machine

/-- A run in which some RKNEXT completed with SCHEDULE_EXHAUSTED is faulted (R18, R236). -/
def State.runFaulted (s : State) : Bool := s.completions.contains .scheduleExhausted

/-- `k` steps with no refused access and no exhausted traversal (R18). -/
def safeRun (k : Nat) (s : State) : Prop :=
  ∃ t, Host.Core.run Sys2Proof.core k s = .next t ∧ t.runFaulted = false

/-- What the host observes of a run so far (R18). -/
def State.observation (s : State) : List Word × List Err := (s.reads, s.completions)

/-- The four registers as the host would read them now (R51). -/
def State.window (s : State) : Word × Word × Word × Word :=
  (readReg .din s, readReg .dout s, readReg .status s, readReg .cmd s)

/-- The invariants of R37, with what KEYED says of RK (R27) and what R9 says of the base. -/
structure State.Inv (s : State) : Prop where
  /-- DES_BASE is a multiple of 32 (R9). -/
  base_aligned : s.desBase % 32 = 0
  /-- KEYED = 0 implies DIR = 0 and CUR = 0 (R37). -/
  unkeyed_rests : s.keyed = false → s.dir = .encrypt ∧ s.cur = 0
  /-- KEYED = 1 only when RK holds the schedule of a parity-valid master key (R27). -/
  keyed_schedule : s.keyed = true → ∃ k : Word, parityOk k = true ∧ s.rk = buildSchedule k
  /-- FATAL = 1 implies KEYED = 1 and CUR = 16 (R37). -/
  fatal_exhausted : s.fatal = true → s.keyed = true ∧ s.cur = 16
  /-- FATAL = 1 implies ERR is 2 or 5 (R37). -/
  fatal_err : s.fatal = true → s.err = .scheduleExhausted ∨ s.err = .halted

/-- Whether a command refuses with NOT_KEYED while KEYED = 0 (R231). -/
def needsKey (i : Instr) : Bool :=
  match i with
  | .chkpar => false
  | .loadkeyE => false
  | .loadkeyD => false
  | .xform => true
  | .rknext => true
  | .rkrewind => true
  | .ffunc _ => true
  | .sboxq _ => false
  | .permIp => false
  | .permFp => false
  | .permPc1 => false
  | .permPc2 => false
  | .permE => false
  | .permP => false

/-- Whether a command validates the parity of DIN (R231). -/
def checksParity (i : Instr) : Bool :=
  match i with
  | .chkpar => true
  | .loadkeyE => true
  | .loadkeyD => true
  | .xform => false
  | .rknext => false
  | .rkrewind => false
  | .ffunc _ => false
  | .sboxq _ => false
  | .permIp => false
  | .permFp => false
  | .permPc1 => false
  | .permPc2 => false
  | .permE => false
  | .permP => false

/-- Whether a command produces a result in DOUT (R22). -/
def producesResult (i : Instr) : Bool :=
  match i with
  | .chkpar => false
  | .loadkeyE => false
  | .loadkeyD => false
  | .xform => true
  | .rknext => true
  | .rkrewind => false
  | .ffunc _ => true
  | .sboxq _ => true
  | .permIp => true
  | .permFp => true
  | .permPc1 => true
  | .permPc2 => true
  | .permE => true
  | .permP => true

/-- The same command issued `n` times over, as long as it answers a next state. -/
def repeatCommand (i : Instr) (n : Nat) (s : State) : Host.Outcome State Fault Refusal :=
  match n with
  | 0 => .next s
  | n + 1 =>
    match exec i s with
    | .next t => repeatCommand i n t
    | .fault r => .fault r
    | .refused r => .refused r

/-- Two outcomes of a run that the host cannot tell apart: both stop for the same reason, or both go on with the same
window, the same observation and the same accesses to come. -/
def sameToHost (a b : Host.Outcome State Fault Refusal) : Prop :=
  match a, b with
  | .next s, .next t => s.window = t.window ∧ s.observation = t.observation ∧ s.host = t.host
  | .fault r, .fault q => r = q
  | .refused r, .refused q => r = q
  | _, _ => False

end Sys2Proof.Machine
end

