-- ==== Sys2Proof/Certificates/Slice0/Obligations.lean ====
section
/-! DEFINITION. The statements for the provers. Each docstring names the rules of spec/ it formalises. -/

open Sys2Proof Sys2Proof.Machine

/-! ## Encoding -/

/-- Decode and encode agree in both directions on every word and every command (R70, R72, R76). -/
def Obligations.DecodeEncodeAgree : Prop :=
  ∀ (w : Word) (i : Instr), decode w = .ok i ↔ i.wellFormed = true ∧ w = encode i

/-- R77: the 36 CMD values that decode to a command, each with its command. Every other value, bits 63:8 included, is
illegal. -/
def Obligations.LegalCommandValues : Prop :=
  ∀ (w : Word) (i : Instr), decode w = .ok i ↔
    (w.toNat = 0x10 ∧ i = .chkpar) ∨ (w.toNat = 0x20 ∧ i = .loadkeyE) ∨ (w.toNat = 0x21 ∧ i = .loadkeyD) ∨
      (w.toNat = 0x30 ∧ i = .xform) ∨ (w.toNat = 0x40 ∧ i = .rknext) ∨ (w.toNat = 0x50 ∧ i = .rkrewind) ∨
      (∃ k : BitVec 4, w.toNat = 0x60 + k.toNat ∧ i = .ffunc k) ∨
      (∃ b : BitVec 4, b.toNat ≤ 7 ∧ w.toNat = 0x70 + b.toNat ∧ i = .sboxq b) ∨
      (w.toNat = 0x80 ∧ i = .permIp) ∨ (w.toNat = 0x81 ∧ i = .permFp) ∨ (w.toNat = 0x82 ∧ i = .permPc1) ∨
      (w.toNat = 0x83 ∧ i = .permPc2) ∨ (w.toNat = 0x84 ∧ i = .permE) ∨ (w.toNat = 0x85 ∧ i = .permP)

/-- Words written out from R70 to R72 decode to the commands they stand for. -/
def Obligations.WrittenWordsDecode : Prop :=
  decode 0x0000000000000010 = .ok .chkpar ∧ decode 0x0000000000000021 = .ok .loadkeyD ∧
    decode 0x0000000000000030 = .ok .xform ∧ decode 0x0000000000000040 = .ok .rknext ∧
    decode 0x000000000000006F = .ok (.ffunc 15) ∧ decode 0x0000000000000077 = .ok (.sboxq 7) ∧
    decode 0x0000000000000085 = .ok .permP

/-! ## Steps and host accesses -/

/-- R57, R76: when the host's next event is the CMD write of a word that decodes to i, the step is exec of i at the
state with that event taken. -/
def Obligations.StepRunsDecodedCommand : Prop :=
  ∀ (s : State) (w : Word) (rest : List HostEvent) (i : Instr),
    s.host = .write (s.desBase + 0x18) 8 w :: rest → decode w = .ok i → step s = exec i { s with host := rest }

/-- R73, R74, R75: a CMD value with an illegal OPC, an illegal MOD or a reserved bit set completes with ILLEGAL_COMMAND
and changes nothing else. -/
def Obligations.IllegalCommandChangesOnlyErr : Prop :=
  ∀ (s : State) (w : Word) (rest : List HostEvent),
    s.host = .write (s.desBase + 0x18) 8 w :: rest → s.fatal = false →
    (w.extractLsb' 8 56 ≠ 0 ∨ w.extractLsb' 4 4 = 0 ∨ 9 ≤ (w.extractLsb' 4 4).toNat ∨
      ((w.extractLsb' 4 4 = 1 ∨ w.extractLsb' 4 4 = 3 ∨ w.extractLsb' 4 4 = 4 ∨ w.extractLsb' 4 4 = 5) ∧
        w.extractLsb' 0 4 ≠ 0) ∨
      (w.extractLsb' 4 4 = 2 ∧ 2 ≤ (w.extractLsb' 0 4).toNat) ∨
      (w.extractLsb' 4 4 = 7 ∧ 8 ≤ (w.extractLsb' 0 4).toNat) ∨
      (w.extractLsb' 4 4 = 8 ∧ 6 ≤ (w.extractLsb' 0 4).toNat)) →
    step s = .next { s with host := rest, err := .illegalCommand, completions := s.completions ++ [.illegalCommand] }

/-- R54, R55: an access is performed exactly when it is eight bytes wide and aligned on one of the four offsets inside
the window; any other is refused with BusError and there is no next state. -/
def Obligations.OnlyAdmittedAccessesArePerformed : Prop :=
  ∀ (s : State) (addr n : Nat) (v : Word) (rest : List HostEvent),
    let admitted := n = 8 ∧ s.desBase ≤ addr ∧ addr < s.desBase + 0x20 ∧
      (addr - s.desBase = 0x00 ∨ addr - s.desBase = 0x08 ∨ addr - s.desBase = 0x10 ∨ addr - s.desBase = 0x18)
    (s.host = .read addr n :: rest →
      (admitted → ∃ t, step s = .next t) ∧ (¬ admitted → step s = .fault (.busError addr))) ∧
    (s.host = .write addr n v :: rest →
      (admitted → ∃ t, step s = .next t) ∧ (¬ admitted → step s = .fault (.busError addr)))

/-- R56 with the read column of R51: a read returns its register and changes nothing of the engine; CMD reads 0. -/
def Obligations.ReadReturnsRegister : Prop :=
  ∀ (s : State) (rest : List HostEvent),
    (s.host = .read (s.desBase + 0x00) 8 :: rest → step s = .next { s with host := rest, reads := s.reads ++ [s.din] }) ∧
    (s.host = .read (s.desBase + 0x08) 8 :: rest → step s = .next { s with host := rest, reads := s.reads ++ [s.dout] }) ∧
    (s.host = .read (s.desBase + 0x10) 8 :: rest →
      step s = .next { s with host := rest, reads := s.reads ++ [statusWord s] }) ∧
    (s.host = .read (s.desBase + 0x18) 8 :: rest → step s = .next { s with host := rest, reads := s.reads ++ [0] })

/-- R57: a write to DIN stores its value, a write to DOUT or STATUS is ignored, and a write to CMD runs the command its
value decodes to, or completes as the illegal command. -/
def Obligations.WritesToTheWindow : Prop :=
  ∀ (s : State) (v : Word) (rest : List HostEvent),
    (s.host = .write (s.desBase + 0x00) 8 v :: rest → step s = .next { s with host := rest, din := v }) ∧
    (s.host = .write (s.desBase + 0x08) 8 v :: rest → step s = .next { s with host := rest }) ∧
    (s.host = .write (s.desBase + 0x10) 8 v :: rest → step s = .next { s with host := rest }) ∧
    (s.host = .write (s.desBase + 0x18) 8 v :: rest →
      step s = (match decode v with
        | .ok i => exec i { s with host := rest }
        | .error _ => .next (illegalCommand { s with host := rest })))

/-- R16, R246: with no host access pending the engine is idle and holds all of its state. -/
def Obligations.IdleHoldsState : Prop := ∀ s : State, s.host = [] → step s = .next s

/-- R25, R32: the layout of STATUS, reserved bits included. -/
def Obligations.StatusLayout : Prop :=
  ∀ s : State,
    (statusWord s).extractLsb' 0 4 = s.err.code ∧ (statusWord s)[4] = s.keyed ∧
    ((statusWord s)[5] = true ↔ s.dir = .decrypt) ∧ (statusWord s)[6] = s.fatal ∧
    (statusWord s)[7] = false ∧ ((statusWord s).extractLsb' 8 5).toNat = s.cur.val ∧
    (statusWord s).extractLsb' 13 51 = 0

/-- R26: the codes of STATUS.ERR, and no code from 6 to 15. -/
def Obligations.ErrorCodes : Prop :=
  Err.ok.code = 0 ∧ Err.invalidKey.code = 1 ∧ Err.scheduleExhausted.code = 2 ∧ Err.notKeyed.code = 3 ∧
    Err.illegalCommand.code = 4 ∧ Err.halted.code = 5 ∧ ∀ e : Err, e.code.toNat ≤ 5

/-! ## Reset -/

/-- R260: the reset input sets every piece of engine state to its reset value; RK is left open. STATUS then reads 0. -/
def Obligations.ResetInput : Prop :=
  ∀ (s : State) (rest : List HostEvent), s.host = .reset :: rest →
    ∃ t : State, step s = .next t ∧ t.din = 0 ∧ t.dout = 0 ∧ t.err = .ok ∧ t.keyed = false ∧ t.dir = .encrypt ∧
      t.fatal = false ∧ t.cur = 0 ∧ statusWord t = 0

/-- What the reset input leaves alone in the model: the base address, the accesses still to come, and the observation
(log entry 16). -/
def Obligations.ResetInputFrame : Prop :=
  ∀ (s : State) (rest : List HostEvent), s.host = .reset :: rest →
    ∃ t : State, step s = .next t ∧ t.desBase = s.desBase ∧ t.host = rest ∧ t.reads = s.reads ∧
      t.completions = s.completions

/-- R20, R260: the registers right after reset as the host reads them, and RK, which holds the model's named value 0
(log entry 2). -/
def Obligations.ResetStateValues : Prop :=
  State.reset.window = (0, 0, 0, 0) ∧ State.reset.keyed = false ∧ State.reset.fatal = false ∧
    State.reset.dir = .encrypt ∧ State.reset.cur = 0 ∧ State.reset.err = .ok ∧ ∀ i : Fin 16, State.reset.rk[i] = 0

/-- R262: reset is the only way to leave the fatal state, and the only operation besides LOADKEY that changes KEYED. -/
def Obligations.WhatLeavesFatalAndChangesKeyed : Prop :=
  ∀ (s t : State), step s = .next t →
    (s.fatal = true → t.fatal = false → ∃ rest, s.host = .reset :: rest) ∧
    (t.keyed ≠ s.keyed →
      (∃ rest, s.host = .reset :: rest) ∨
      (∃ rest, s.host = .write (s.desBase + 0x18) 8 0x20 :: rest) ∨
      (∃ rest, s.host = .write (s.desBase + 0x18) 8 0x21 :: rest))

/-! ## Key commands -/

/-- R140: a key is parity-valid exactly when each of its eight bytes has an odd number of one bits. -/
def Obligations.ParityIsOddPerByte : Prop :=
  ∀ k : Word, parityOk k = true ↔
    ∀ b : Fin 8,
      (k.getLsbD (8 * b.val) ^^ k.getLsbD (8 * b.val + 1) ^^ k.getLsbD (8 * b.val + 2) ^^ k.getLsbD (8 * b.val + 3) ^^
        k.getLsbD (8 * b.val + 4) ^^ k.getLsbD (8 * b.val + 5) ^^ k.getLsbD (8 * b.val + 6) ^^
        k.getLsbD (8 * b.val + 7)) = true

/-- R147: CHKPAR (CMD value 0x10) changes only STATUS.ERR, whether the key passes or fails. -/
def Obligations.ChkparOutcome : Prop :=
  decode 0x10 = .ok .chkpar ∧
  ∀ s : State,
    (s.fatal = false → parityOk s.din = true →
      exec .chkpar s = .next { s with err := .ok, completions := s.completions ++ [.ok] }) ∧
    (s.fatal = false → parityOk s.din = false →
      exec .chkpar s = .next { s with err := .invalidKey, completions := s.completions ++ [.invalidKey] }) ∧
    (s.fatal = true → exec .chkpar s = .next { s with err := .halted, completions := s.completions ++ [.halted] })

/-- R148: LOADKEY in all its cases. With a parity-valid key it writes all of RK, sets KEYED and the direction and rewinds
the cursor, keyed before or not. With a key that fails parity it unkeys the engine and leaves RK open (how many free
values were drawn is left open too). With an illegal MOD, or while FATAL = 1, it changes only STATUS.ERR. -/
def Obligations.LoadkeyOutcome : Prop :=
  decode 0x20 = .ok .loadkeyE ∧ decode 0x21 = .ok .loadkeyD ∧
  ∀ s : State,
    (s.fatal = false → parityOk s.din = true →
      exec .loadkeyE s = .next { s with rk := buildSchedule s.din, keyed := true, dir := .encrypt, cur := 0, err := .ok,
                                        completions := s.completions ++ [.ok] } ∧
      exec .loadkeyD s = .next { s with rk := buildSchedule s.din, keyed := true, dir := .decrypt, cur := 0, err := .ok,
                                        completions := s.completions ++ [.ok] }) ∧
    (s.fatal = false → parityOk s.din = false → ∀ i : Instr, (i = .loadkeyE ∨ i = .loadkeyD) →
      ∃ (r : RoundKeys) (n : Nat),
        exec i s = .next { s with rk := r, freeCount := n, keyed := false, dir := .encrypt, cur := 0, err := .invalidKey,
                                  completions := s.completions ++ [.invalidKey] }) ∧
    (s.fatal = false → ∀ m : BitVec 4, 2 ≤ m.toNat →
      runCommand (0x20 + m.setWidth 64) s =
        .next { s with err := .illegalCommand, completions := s.completions ++ [.illegalCommand] }) ∧
    (s.fatal = true → ∀ i : Instr, (i = .loadkeyE ∨ i = .loadkeyD) →
      exec i s = .next { s with err := .halted, completions := s.completions ++ [.halted] })

/-- R149: a LOADKEY that fails with INVALID_KEY leaves KEYED = 0, DIR = 0 and CUR = 0. While KEYED = 0 the four commands
that need a key fail with NOT_KEYED, and only a LOADKEY with a parity-valid key ends that. -/
def Obligations.FailedLoadkeyUnkeys : Prop :=
  (∀ (s : State) (i : Instr), s.fatal = false → parityOk s.din = false → (i = .loadkeyE ∨ i = .loadkeyD) →
    ∃ t : State, exec i s = .next t ∧ t.err = .invalidKey ∧ t.fatal = false ∧ t.keyed = false ∧ t.dir = .encrypt ∧
      t.cur = 0) ∧
  (∀ (t : State) (j : Instr), t.fatal = false → t.keyed = false →
    (j = .xform ∨ j = .rknext ∨ j = .rkrewind ∨ ∃ k, j = .ffunc k) →
    exec j t = .next { t with err := .notKeyed, completions := t.completions ++ [.notKeyed] }) ∧
  ∀ t u : State, t.keyed = false → step t = .next u → u.keyed = true →
    parityOk t.din = true ∧ ∃ rest,
      t.host = .write (t.desBase + 0x18) 8 0x20 :: rest ∨ t.host = .write (t.desBase + 0x18) 8 0x21 :: rest

/-- R142, R143: the schedule by its recurrence. C and D are rotated round by round from PC-1's halves, round key i is
PC-2 of the halves after rotation i, the amounts total 28, and after 16 rotations C and D are back at their starting
values. -/
def Obligations.ScheduleRecurrence : Prop :=
  let amounts : List Nat := [1, 1, 2, 2, 2, 2, 2, 2, 1, 2, 2, 2, 2, 2, 2, 1]
  amounts.sum = 28 ∧
  ∀ k : Word, ∃ c d : Nat → KeyHalf,
    c 0 = (permute 56 tablePc1 k).extractLsb' 28 28 ∧ d 0 = (permute 56 tablePc1 k).extractLsb' 0 28 ∧
    (∀ i : Fin 16,
      c (i.val + 1) = (c i.val).rotateLeft (amounts.getD i.val 0) ∧
      d (i.val + 1) = (d i.val).rotateLeft (amounts.getD i.val 0) ∧
      (buildSchedule k)[i] = permute 48 tablePc2 (c (i.val + 1) ++ d (i.val + 1))) ∧
    c 16 = c 0 ∧ d 16 = d 0

/-- R151: the sixteen rotations bring a half back to its starting value, and so the last round key is PC-2 of the
unrotated PC-1 output. -/
def Obligations.LastRoundKey : Prop :=
  (∀ x : KeyHalf, [1, 1, 2, 2, 2, 2, 2, 2, 1, 2, 2, 2, 2, 2, 2, 1].foldl (fun y a => y.rotateLeft a) x = x) ∧
  ∀ k : Word, (buildSchedule k)[15] = permute 48 tablePc2 (permute 56 tablePc1 k)

/-- R141: PC-1, and with it the schedule, drops the least significant bit of each byte, and each value of the 56 other
bits has exactly one parity-valid key. -/
def Obligations.ParityBitsCarryNoKey : Prop :=
  (∀ k k' : Word, k &&& 0xFEFEFEFEFEFEFEFE = k' &&& 0xFEFEFEFEFEFEFEFE →
    permute 56 tablePc1 k = permute 56 tablePc1 k' ∧ buildSchedule k = buildSchedule k') ∧
  ∀ k : Word, ∃! k' : Word, k' &&& 0xFEFEFEFEFEFEFEFE = k &&& 0xFEFEFEFEFEFEFEFE ∧ parityOk k' = true

/-- R146: the weak keys are accepted, and their schedules are the constant ones of R146. -/
def Obligations.WeakKeySchedules : Prop :=
  parityOk 0x0101010101010101 = true ∧ parityOk 0xFEFEFEFEFEFEFEFE = true ∧
    (∀ i : Fin 16, (buildSchedule 0x0101010101010101)[i] = 0x000000000000) ∧
    ∀ i : Fin 16, (buildSchedule 0xFEFEFEFEFEFEFEFE)[i] = 0xFFFFFFFFFFFF

/-- R150: Encrypt consumes round keys 0 to 15 and Decrypt the same schedule 15 to 0, one per round of an XFORM. -/
def Obligations.DirectionOrdersTheKeys : Prop :=
  ∀ (rk : RoundKeys) (n : Fin 16),
    keyForStep .encrypt rk n = rk[n] ∧
    (∀ m : Fin 16, m.val = 15 - n.val → keyForStep .decrypt rk n = rk[m]) ∧
    keysInOrder .encrypt rk = rk.toList ∧ keysInOrder .decrypt rk = rk.toList.reverse

/-- R152: RKNEXT (CMD value 0x40) in all its cases. -/
def Obligations.RknextOutcome : Prop :=
  decode 0x40 = .ok .rknext ∧
  ∀ s : State,
    (s.fatal = false → s.keyed = true → ∀ h : s.cur.val < 16,
      exec .rknext s = .next { s with dout := (keyForStep s.dir s.rk ⟨s.cur.val, h⟩).setWidth 64,
                                      cur := ⟨s.cur.val + 1, by omega⟩, err := .ok,
                                      completions := s.completions ++ [.ok] }) ∧
    (s.fatal = false → s.keyed = true → s.cur = 16 →
      exec .rknext s = .next { s with fatal := true, err := .scheduleExhausted,
                                      completions := s.completions ++ [.scheduleExhausted] }) ∧
    (s.fatal = false → s.keyed = false →
      exec .rknext s = .next { s with err := .notKeyed, completions := s.completions ++ [.notKeyed] }) ∧
    (s.fatal = true → exec .rknext s = .next { s with err := .halted, completions := s.completions ++ [.halted] })

/-- R153: RKREWIND (CMD value 0x50) in all its cases. -/
def Obligations.RkrewindOutcome : Prop :=
  decode 0x50 = .ok .rkrewind ∧
  ∀ s : State,
    (s.fatal = false → s.keyed = true →
      exec .rkrewind s = .next { s with cur := 0, err := .ok, completions := s.completions ++ [.ok] }) ∧
    (s.fatal = false → s.keyed = false →
      exec .rkrewind s = .next { s with err := .notKeyed, completions := s.completions ++ [.notKeyed] }) ∧
    (s.fatal = true → exec .rkrewind s = .next { s with err := .halted, completions := s.completions ++ [.halted] })

/-- R31, R150, R267: from a rewound cursor, the n-th of up to 16 RKNEXTs delivers the key of step n - 1, and the 17th is
fatal. -/
def Obligations.TraversalDeliversEveryKeyOnce : Prop :=
  ∀ s : State, s.fatal = false → s.keyed = true → s.cur = 0 →
    (∀ n : Fin 16, ∃ t, repeatCommand .rknext (n.val + 1) s = .next t ∧ t.cur.val = n.val + 1 ∧
      t.dout = (keyForStep s.dir s.rk n).setWidth 64 ∧ t.err = .ok ∧ t.fatal = false ∧ t.rk = s.rk) ∧
    ∃ t, repeatCommand .rknext 17 s = .next t ∧ t.fatal = true ∧ t.err = .scheduleExhausted ∧ t.cur = 16 ∧
      t.dout = (keyForStep s.dir s.rk 15).setWidth 64

/-! ## Tables and the round function -/

/-- R100: every output bit of a permutation is the input bit its entry names, and the two constant inputs map to the
constant outputs. -/
def Obligations.PermuteCopiesBits : Prop :=
  ∀ (n m : Nat) (table : List Nat), table.length = m → (∀ p ∈ table, 1 ≤ p ∧ p ≤ n) →
    (∀ (v : BitVec n) (i : Fin m), (permute m table v).getLsbD (m - 1 - i.val) = v.getLsbD (n - table.getD i.val 0)) ∧
    permute m table (0 : BitVec n) = 0 ∧ permute m table (BitVec.allOnes n) = BitVec.allOnes m

/-- R104: FP is the inverse of IP, both ways round. -/
def Obligations.FpInvertsIp : Prop :=
  ∀ v : Word, permute 64 tableFp (permute 64 tableIp v) = v ∧ permute 64 tableIp (permute 64 tableFp v) = v

/-- R101, R118: the lengths and ranges of the tables, IP, FP and P with every entry once, and every S-box row a
permutation of 0 to 15. -/
def Obligations.TableShapes : Prop :=
  (∀ t : TableId, t.entries.length = t.outWidth ∧ ∀ p ∈ t.entries, 1 ≤ p ∧ p ≤ t.inWidth) ∧
    tableIp.Nodup ∧ tableFp.Nodup ∧ tableP.Nodup ∧
    sboxes.length = 8 ∧ ∀ box ∈ sboxes, box.length = 4 ∧ ∀ row ∈ box, row.length = 16 ∧ row.Nodup ∧ ∀ x ∈ row, x ≤ 15

/-- R119 with 95_test_vectors.md V11: every S-box at every one of its 64 inputs, against the flat listing of V11 (one
hexadecimal digit per input, x = 0x00 first). -/
def Obligations.SboxesMatchTheFlatListing : Prop :=
  let flat : List Nat :=
    [0xE04FD7142EF2BD813AA66CCB59950378 * 2 ^ 128 + 0x4F1CE882D46921B7F5CB937E3AA0560D,
     0xF31D84E76FB2384E9C7021DAC6095BA5 * 2 ^ 128 + 0x0DE87AB1A34FD4125B86C76C90352EF9,
     0xAD0790E96334F65A12D8C57EBC4B2F81 * 2 ^ 128 + 0xD16A4D9086F93807B41F2EC35BA5E27C,
     0x7DD8EB35066F90A31427825CB1CA4EF9 * 2 ^ 128 + 0xA36F9006CAB17DD8F91435EB5C27824E,
     0x2ECB421C74A7BD6185503FFAD309E896 * 2 ^ 128 + 0x4B281CB7A1DE728DF69FC0596A3405E3,
     0xCA1FA4F2972C698506D13D4EE07B53B8 * 2 ^ 128 + 0x94E3F25C2985CF3A7B0E41A716D0B86D,
     0x4DB02BE7F40981DA3EC3957C52AF6816 * 2 ^ 128 + 0x164BBDD8C1347AE7A9F5608F0E52932C,
     0xD12F8D486AF3B714AC9536EB500EC972 * 2 ^ 128 + 0x72B14E1794CAE82D0F6CA9D0F335568B]
  ∀ (j : Fin 8) (x : BitVec 6),
    (substitute j x).toNat = flat.getD j.val 0 / 16 ^ (63 - x.toNat) % 16

/-- R180, R182 to R186: F by its steps. The eight chunks, most significant first, go through the eight S-boxes, whose
outputs stand most significant first in the value that P permutes. -/
def Obligations.RoundFunctionSteps : Prop :=
  ∀ (h : Half) (k : RoundKey), ∃ sOut : Half,
    roundF h k = permute 32 tableP sOut ∧
    ∀ j : Fin 8, sOut.extractLsb' (28 - 4 * j.val) 4 =
      substitute j ((permute 48 tableE h ^^^ k).extractLsb' (42 - 6 * j.val) 6)

/-- R187: F depends on its operands only through E(H) ^ K, and complementing both leaves it unchanged. -/
def Obligations.RoundFunctionComplement : Prop :=
  (∀ (h h' : Half) (k k' : RoundKey),
    permute 48 tableE h ^^^ k = permute 48 tableE h' ^^^ k' → roundF h k = roundF h' k') ∧
  ∀ (h : Half) (k : RoundKey), roundF (~~~h) (~~~k) = roundF h k

/-- R188: FFUNC (CMD value 0x60 + KIDX) in all its cases, for every index. -/
def Obligations.FfuncOutcome : Prop :=
  ∀ (s : State) (kidx : BitVec 4),
    decode (0x60 + kidx.setWidth 64) = .ok (.ffunc kidx) ∧
    (s.fatal = false → s.keyed = true →
      exec (.ffunc kidx) s = .next { s with dout := (roundF (s.din.setWidth 32) s.rk[kidx.toFin]).setWidth 64, err := .ok,
                                            completions := s.completions ++ [.ok] }) ∧
    (s.fatal = false → s.keyed = false →
      exec (.ffunc kidx) s = .next { s with err := .notKeyed, completions := s.completions ++ [.notKeyed] }) ∧
    (s.fatal = true →
      exec (.ffunc kidx) s = .next { s with err := .halted, completions := s.completions ++ [.halted] })

/-- R121: SBOXQ (CMD value 0x70 + BOX) in all its cases, the illegal modifiers included. -/
def Obligations.SboxqOutcome : Prop :=
  ∀ (s : State) (mod : BitVec 4),
    (mod.toNat ≤ 7 → decode (0x70 + mod.setWidth 64) = .ok (.sboxq mod)) ∧
    (s.fatal = false → 8 ≤ mod.toNat →
      runCommand (0x70 + mod.setWidth 64) s =
        .next { s with err := .illegalCommand, completions := s.completions ++ [.illegalCommand] }) ∧
    (s.fatal = false → ∀ box : Fin 8, mod.toNat = box.val →
      exec (.sboxq mod) s = .next { s with dout := (substitute box (s.din.setWidth 6)).setWidth 64, err := .ok,
                                           completions := s.completions ++ [.ok] }) ∧
    (s.fatal = false → 8 ≤ mod.toNat →
      exec (.sboxq mod) s = .next { s with err := .illegalCommand, completions := s.completions ++ [.illegalCommand] }) ∧
    (s.fatal = true →
      exec (.sboxq mod) s = .next { s with err := .halted, completions := s.completions ++ [.halted] })

/-- R120: PERM (CMD value 0x80 + TBL) through each of the six tables, keyed or not; the bits of DIN above the input
width are ignored. With TBL above 5, or while FATAL = 1, it changes only STATUS.ERR. -/
def Obligations.PermOutcome : Prop :=
  decode 0x80 = .ok .permIp ∧ decode 0x81 = .ok .permFp ∧ decode 0x82 = .ok .permPc1 ∧
  decode 0x83 = .ok .permPc2 ∧ decode 0x84 = .ok .permE ∧ decode 0x85 = .ok .permP ∧
  ∀ s : State,
    (s.fatal = false → ∀ tbl : BitVec 4, 6 ≤ tbl.toNat →
      runCommand (0x80 + tbl.setWidth 64) s =
        .next { s with err := .illegalCommand, completions := s.completions ++ [.illegalCommand] }) ∧
    (s.fatal = false →
      exec .permIp s = .next { s with dout := permute 64 tableIp s.din, err := .ok,
                                      completions := s.completions ++ [.ok] } ∧
      exec .permFp s = .next { s with dout := permute 64 tableFp s.din, err := .ok,
                                      completions := s.completions ++ [.ok] } ∧
      exec .permPc1 s = .next { s with dout := (permute 56 tablePc1 s.din).setWidth 64, err := .ok,
                                       completions := s.completions ++ [.ok] } ∧
      exec .permPc2 s = .next { s with dout := (permute 48 tablePc2 (s.din.setWidth 56)).setWidth 64, err := .ok,
                                       completions := s.completions ++ [.ok] } ∧
      exec .permE s = .next { s with dout := (permute 48 tableE (s.din.setWidth 32)).setWidth 64, err := .ok,
                                     completions := s.completions ++ [.ok] } ∧
      exec .permP s = .next { s with dout := (permute 32 tableP (s.din.setWidth 32)).setWidth 64, err := .ok,
                                     completions := s.completions ++ [.ok] }) ∧
    (s.fatal = true → ∀ i : Instr,
      (i = .permIp ∨ i = .permFp ∨ i = .permPc1 ∨ i = .permPc2 ∨ i = .permE ∨ i = .permP) →
      exec i s = .next { s with err := .halted, completions := s.completions ++ [.halted] })

/-! ## Block transform -/

/-- R201 to R204: the transform by its recurrence. -/
def Obligations.BlockTransformRecurrence : Prop :=
  ∀ (b : Word) (d : Direction) (rk : RoundKeys), ∃ l r : Nat → Half,
    l 0 = (permute 64 tableIp b).extractLsb' 32 32 ∧ r 0 = (permute 64 tableIp b).extractLsb' 0 32 ∧
    (∀ n : Fin 16, l (n.val + 1) = r n.val ∧ r (n.val + 1) = l n.val ^^^ roundF (r n.val) (keyForStep d rk n)) ∧
    processBlock b d rk = permute 64 tableFp (r 16 ++ l 16)

/-- R206: decrypting what was encrypted, and encrypting what was decrypted, gives the block back. It holds for every
content of RK, the schedules of parity-valid keys among them. -/
def Obligations.BlockRoundTrip : Prop :=
  ∀ (b : Word) (rk : RoundKeys),
    processBlock (processBlock b .encrypt rk) .decrypt rk = b ∧
    processBlock (processBlock b .decrypt rk) .encrypt rk = b

/-- R207: XFORM (CMD value 0x30) in all its cases. -/
def Obligations.XformOutcome : Prop :=
  decode 0x30 = .ok .xform ∧
  ∀ s : State,
    (s.fatal = false → s.keyed = true →
      exec .xform s = .next { s with dout := processBlock s.din s.dir s.rk, err := .ok,
                                     completions := s.completions ++ [.ok] }) ∧
    (s.fatal = false → s.keyed = false →
      exec .xform s = .next { s with err := .notKeyed, completions := s.completions ++ [.notKeyed] }) ∧
    (s.fatal = true → exec .xform s = .next { s with err := .halted, completions := s.completions ++ [.halted] })

/-- R208: XFORM writes only DOUT and STATUS.ERR, and what it delivers depends only on DIN, DIR and RK: not on CUR, not on
earlier results, not on anything else of the state. -/
def Obligations.XformIsIndependentOfTheRest : Prop :=
  ∀ s s' : State, s.fatal = false → s'.fatal = false → s.keyed = true → s'.keyed = true →
    s.din = s'.din → s.dir = s'.dir → s.rk = s'.rk →
    ∃ t t', exec .xform s = .next t ∧ exec .xform s' = .next t' ∧ t.dout = t'.dout ∧ t.err = t'.err ∧
      t = { s with dout := t.dout, err := t.err, completions := s.completions ++ [t.err] }

/-- 95_test_vectors.md V15, from R187 and R200: complementing key and block complements the result, and complementing a
key complements its schedule and keeps its parity. -/
def Obligations.ComplementationProperty : Prop :=
  (∀ (b : Word) (d : Direction) (rk : RoundKeys),
    processBlock (~~~b) d (rk.map fun k => ~~~k) = ~~~(processBlock b d rk)) ∧
  ∀ k : Word, buildSchedule (~~~k) = (buildSchedule k).map (fun x => ~~~x) ∧ parityOk (~~~k) = parityOk k

/-- V16 and V20: under a schedule of sixteen equal round keys, Encrypt and Decrypt are one transform, which is its own
inverse. -/
def Obligations.EqualKeysMakeAnInvolution : Prop :=
  ∀ (b : Word) (d d' : Direction) (rk : RoundKeys), (∀ i : Fin 16, rk[i] = rk[0]) →
    processBlock b d rk = processBlock b d' rk ∧ processBlock (processBlock b d rk) d rk = b

/-! ## Whole-machine rules -/

/-- R230: every command completes, with exactly one code, and STATUS.ERR holds that code. -/
def Obligations.EveryCommandCompletes : Prop :=
  ∀ (w : Word) (s : State), ∃ t, runCommand w s = .next t ∧ t.completions = s.completions ++ [t.err]

/-- R235: the first error condition in the order HALTED, ILLEGAL_COMMAND, NOT_KEYED, then the command's own, is the code
a CMD write completes with, and OK where none holds. BusError precedes them all: a write of another width reaches no
command, whatever the state and the value. -/
def Obligations.ErrorPriority : Prop :=
  (∀ (s : State) (w : Word) (rest : List HostEvent), s.host = .write (s.desBase + 0x18) 8 w :: rest →
    ∃ t, step s = .next t ∧
      t.err =
        if s.fatal then .halted
        else match decode w with
          | .error _ => .illegalCommand
          | .ok i =>
            if needsKey i && !s.keyed then .notKeyed
            else if checksParity i && !parityOk s.din then .invalidKey
            else if i = .rknext ∧ s.cur = 16 then .scheduleExhausted
            else .ok) ∧
  ∀ (s : State) (addr n : Nat) (w : Word) (rest : List HostEvent), n ≠ 8 → s.host = .write addr n w :: rest →
    step s = .fault (.busError addr)

/-- R236: the fatal state. The RKNEXT that finds the traversal exhausted enters it; every CMD write in it, legal or not,
completes with HALTED and changes nothing else; DIN writes and register reads still work; only reset leaves it. -/
def Obligations.FatalState : Prop :=
  (∀ s : State, s.fatal = false → s.keyed = true → s.cur = 16 →
    ∃ t, exec .rknext s = .next t ∧ t.fatal = true ∧ t.err = .scheduleExhausted) ∧
  (∀ (s : State) (w : Word) (rest : List HostEvent), s.fatal = true →
    s.host = .write (s.desBase + 0x18) 8 w :: rest →
    step s = .next { s with host := rest, err := .halted, completions := s.completions ++ [.halted] }) ∧
  (∀ (s : State) (v : Word) (rest : List HostEvent), s.fatal = true → s.host = .write (s.desBase + 0x00) 8 v :: rest →
    step s = .next { s with host := rest, din := v }) ∧
  (∀ (s : State) (r : Reg) (rest : List HostEvent), s.fatal = true → s.host = .read (s.desBase + r.offset) 8 :: rest →
    step s = .next { s with host := rest, reads := s.reads ++ [readReg r s] }) ∧
  ∀ s t : State, s.fatal = true → step s = .next t → t.fatal = false → ∃ rest, s.host = .reset :: rest

/-- R21, R24, R26, R27, R28: the frame of every command for the operand register, the schedule and what belongs to it.
No command writes DIN, and only the two LOADKEYs write RK, KEYED and DIR. -/
def Obligations.CommandsKeepOperandAndSchedule : Prop :=
  ∀ (i : Instr) (s t : State), exec i s = .next t →
    t.din = s.din ∧ t.desBase = s.desBase ∧ t.host = s.host ∧ t.reads = s.reads ∧
    (i ≠ .loadkeyE → i ≠ .loadkeyD →
      t.rk = s.rk ∧ t.keyed = s.keyed ∧ t.dir = s.dir ∧ t.freeCount = s.freeCount)

/-- R22, R30, R31: the frame of every command for DOUT, FATAL and CUR. A command that ends in an error or that produces
no result leaves DOUT, only RKNEXT changes FATAL, and only LOADKEY, RKNEXT and RKREWIND change CUR. -/
def Obligations.CommandsKeepResultAndCursor : Prop :=
  ∀ (i : Instr) (s t : State), exec i s = .next t →
    (t.err ≠ .ok ∨ producesResult i = false → t.dout = s.dout) ∧
    (i ≠ .rknext → t.fatal = s.fatal) ∧
    (i ≠ .loadkeyE → i ≠ .loadkeyD → i ≠ .rknext → i ≠ .rkrewind → t.cur = s.cur)

/-! ## Invariants and noninterference -/

/-- The invariant holds right after reset (its base is the model's named value 0, log entry 1). -/
def Obligations.ResetMeetsTheInvariant : Prop := State.reset.Inv

/-- Every step, whatever the host does, keeps the invariants of R37, what KEYED says of RK (R27), and the alignment of
the base (R9). -/
def Obligations.StepKeepsTheInvariant : Prop :=
  ∀ s t : State, s.Inv → step s = .next t → t.Inv

/-- R37: the four invariants hold in every reachable state, that is, after any number of steps of any host program from
the reset state, at every base address and whatever RK held at reset. -/
def Obligations.ReachableStatesMeetR37 : Prop :=
  ∀ (base : Nat) (r : RoundKeys) (program : List HostEvent) (k : Nat) (t : State),
    Host.Core.run core k { State.reset with desBase := base, rk := r, host := program } = .next t →
    t.cur.val ≤ 16 ∧ (t.keyed = false → t.dir = .encrypt ∧ t.cur = 0) ∧
    (t.fatal = true → t.keyed = true ∧ t.cur = 16) ∧ (t.fatal = true → t.err.code = 2 ∨ t.err.code = 5)

/-- R24, R261, 93_implementation_defined.md I1: while KEYED = 0 the contents of RK are never observable. Two engines that
differ only in RK, both unkeyed, look the same to the host after any number of steps of the same host program. -/
def Obligations.UnkeyedScheduleIsUnobservable : Prop :=
  ∀ (k : Nat) (s : State) (r : RoundKeys), s.keyed = false →
    sameToHost (Host.Core.run core k s) (Host.Core.run core k { s with rk := r })

/-- R59, R244: engines share nothing. A turn leaves every engine but its own alone, and the turns of two different
engines may be taken in either order. -/
def Obligations.EnginesAreIndependent : Prop :=
  (∀ (p q : Platform) (k : Nat) (rest : List Nat), p.turns = k :: rest → p.step = .next q →
    q.turns = rest ∧ q.engines.length = p.engines.length ∧ ∀ j, j ≠ k → q.engines[j]? = p.engines[j]?) ∧
  ∀ (p : Platform) (j k : Nat) (rest : List Nat) (p1 p2 q1 q2 : Platform), j ≠ k →
    Platform.step { p with turns := j :: k :: rest } = .next p1 → p1.step = .next p2 →
    Platform.step { p with turns := k :: j :: rest } = .next q1 → q1.step = .next q2 → p2 = q2

/-- R52: the big-endian reading of a buffer. Byte 0 stands in bits 63:56, and the reverse conversion undoes it. -/
def Obligations.BuffersAreBigEndian : Prop :=
  (∀ (b : Vector (BitVec 8) 8) (i : Fin 8), (blockOfBytes b).extractLsb' (56 - 8 * i.val) 8 = b[i]) ∧
    ∀ v : Word, blockOfBytes (bytesOfBlock v) = v
end

