-- ==== Sys2Proof/Laws/Tables.lean ====
section
/-! SUPPORT. What the generic permutation does to single bits, and what follows for whole values. -/

namespace Sys2Proof.Machine

/-- The spec lemma of `permute` (R100): output bit i, counted from the least significant, is the input's DES bit
`T[m - 1 - i]`. -/
theorem permute_getLsbD {n m : Nat} {table : List Nat} (hlen : table.length = m) (v : BitVec n) (i : Nat) :
    (permute m table v).getLsbD i = (decide (i < m) && dbit v (table.getD (m - 1 - i) 0)) := by
  subst hlen
  by_cases h : i < table.length
  · have h2 : table.length - 1 - i < table.length := by omega
    simp [permute, h, h2, List.getD_eq_getElem?_getD]
  · simp [permute, BitVec.getLsbD_ofBoolListBE, h]

theorem dbit_xor {n : Nat} (a b : BitVec n) (p : Nat) : dbit (a ^^^ b) p = (dbit a p ^^ dbit b p) := by
  simp [dbit]

/-- A permutation copies bits, so it commutes with XOR (R100). -/
theorem permute_xor {n m : Nat} {table : List Nat} (hlen : table.length = m) (a b : BitVec n) :
    permute m table (a ^^^ b) = permute m table a ^^^ permute m table b := by
  apply BitVec.eq_of_getLsbD_eq
  intro i _
  rw [BitVec.getLsbD_xor, permute_getLsbD hlen, permute_getLsbD hlen, permute_getLsbD hlen, dbit_xor,
    Bool.and_xor_distrib_left]

/-- A permutation whose entries are all bit numbers of its input never inverts a bit (R100). -/
theorem permute_not {n m : Nat} {table : List Nat} (hlen : table.length = m) (hr : ∀ p ∈ table, 1 ≤ p ∧ p ≤ n)
    (v : BitVec n) : permute m table (~~~v) = ~~~permute m table v := by
  apply BitVec.eq_of_getLsbD_eq
  intro i hi
  have hlt : m - 1 - i < table.length := by omega
  have hp := hr table[m - 1 - i] (List.getElem_mem _)
  rw [BitVec.getLsbD_not, permute_getLsbD hlen, permute_getLsbD hlen]
  simp [dbit, hi, hlt]
  intro _
  omega

/-- Two inputs that agree on every DES bit the table selects have one output. -/
theorem permute_congr {n m : Nat} {table : List Nat} {a b : BitVec n} (h : ∀ p ∈ table, dbit a p = dbit b p) :
    permute m table a = permute m table b := by
  have hmap : table.map (dbit a) = table.map (dbit b) := List.map_congr_left h
  exact congrArg (fun bits => (BitVec.ofBoolListBE bits).setWidth m) hmap

@[simp] theorem tableIp_length : tableIp.length = 64 := rfl
@[simp] theorem tableFp_length : tableFp.length = 64 := rfl
@[simp] theorem tablePc1_length : tablePc1.length = 56 := rfl
@[simp] theorem tablePc2_length : tablePc2.length = 48 := rfl
@[simp] theorem tableE_length : tableE.length = 48 := rfl
@[simp] theorem tableP_length : tableP.length = 32 := rfl

theorem tableIp_range : ∀ p ∈ tableIp, 1 ≤ p ∧ p ≤ 64 := by decide
theorem tableFp_range : ∀ p ∈ tableFp, 1 ≤ p ∧ p ≤ 64 := by decide
theorem tablePc1_range : ∀ p ∈ tablePc1, 1 ≤ p ∧ p ≤ 64 := by decide
theorem tablePc2_range : ∀ p ∈ tablePc2, 1 ≤ p ∧ p ≤ 56 := by decide
theorem tableE_range : ∀ p ∈ tableE, 1 ≤ p ∧ p ≤ 32 := by decide
theorem tableP_range : ∀ p ∈ tableP, 1 ≤ p ∧ p ≤ 32 := by decide

theorem TableId.entries_length (t : TableId) : t.entries.length = t.outWidth := by cases t <;> rfl

end Sys2Proof.Machine
end

