-- ==== Sys2Proof/Laws/Cipher.lean ====
section
/-! SUPPORT. Small lemmas of the key schedule, the round function and the rounds. -/

namespace Sys2Proof.Machine

@[simp] theorem scheduleFrom_cons (c d : KeyHalf) (a : Nat) (rest : List Nat) :
    scheduleFrom c d (a :: rest) =
      permute 48 tablePc2 (rol c a ++ rol d a) :: scheduleFrom (rol c a) (rol d a) rest := rfl

/-- The bits of a left rotation (R10). -/
theorem rol_getLsbD {w : Nat} (x : BitVec w) {s : Nat} (h : s ≤ w) {i : Nat} (hi : i < w) :
    (rol x s).getLsbD i = x.getLsbD (if i < s then i + (w - s) else i - s) := by
  rw [rol, BitVec.getLsbD_or, BitVec.getLsbD_shiftLeft, BitVec.getLsbD_ushiftRight]
  by_cases hs : i < s
  · simp [hs, hi, Nat.add_comm]
  · have hz : x.getLsbD (w - s + i) = false := BitVec.getLsbD_of_ge _ _ (by omega)
    simp [hs, hi, hz]

/-- Rotations accumulate. -/
theorem rol_rol {w : Nat} (x : BitVec w) {a b : Nat} (h : a + b ≤ w) : rol (rol x a) b = rol x (a + b) := by
  apply BitVec.eq_of_getLsbD_eq
  intro i hi
  rw [rol_getLsbD _ (by omega) hi, rol_getLsbD _ (by omega) (by split <;> omega), rol_getLsbD _ h hi]
  congr 1
  split <;> split <;> split <;> omega

/-- A whole turn is no rotation. -/
theorem rol_width {w : Nat} (x : BitVec w) : rol x w = x := by simp [rol]

/-- Round key i is PC-2 of the halves after the first i + 1 rotations (R143). -/
theorem scheduleFrom_getElem (amounts : List Nat) :
    ∀ (c d : KeyHalf) (i : Nat) (h : i < amounts.length),
      (scheduleFrom c d amounts)[i]'(by rw [scheduleFrom_length]; exact h) =
        permute 48 tablePc2 ((amounts.take (i + 1)).foldl rol c ++ (amounts.take (i + 1)).foldl rol d) := by
  induction amounts with
  | nil => intro c d i h; simp at h
  | cons a rest ih =>
    intro c d i h
    cases i with
    | zero => simp
    | succ i =>
      simp only [scheduleFrom_cons, List.getElem_cons_succ, List.take_succ_cons, List.foldl_cons]
      exact ih _ _ _ (by simpa using h)

theorem buildSchedule_toList (k : Word) : (buildSchedule k).toList = scheduleList k := by
  simp [buildSchedule, Vector.toList]

theorem buildSchedule_getElem (k : Word) (i : Fin 16) :
    (buildSchedule k)[i] = (scheduleList k)[i.val]'(by rw [scheduleList_length]; exact i.isLt) := by
  simp [buildSchedule]

@[simp] theorem keyForStep_encrypt (rk : RoundKeys) (n : Fin 16) : keyForStep .encrypt rk n = rk[n] := rfl

@[simp] theorem keyForStep_decrypt (rk : RoundKeys) (n : Fin 16) : keyForStep .decrypt rk n = rk[15 - n] := rfl

@[simp] theorem keysInOrder_length (d : Direction) (rk : RoundKeys) : (keysInOrder d rk).length = 16 := by
  simp [keysInOrder]

@[simp] theorem feistel_nil (l r : Half) : feistel [] l r = (l, r) := rfl

@[simp] theorem feistel_cons (k : RoundKey) (rest : List RoundKey) (l r : Half) :
    feistel (k :: rest) l r = feistel rest r (l ^^^ roundF r k) := rfl

/-- The rounds over a longer key list are the rounds over its parts, one after the other. -/
theorem feistel_append (ks js : List RoundKey) :
    ∀ l r : Half, feistel (ks ++ js) l r = feistel js (feistel ks l r).1 (feistel ks l r).2 := by
  induction ks with
  | nil => intro l r; rfl
  | cons k rest ih => intro l r; simp [ih]

/-- The rounds are undone by the same rounds over the reversed keys, entered and left with the halves exchanged: this is
what any Feistel network gives, whatever F is (R206). -/
theorem feistel_reverse (ks : List RoundKey) :
    ∀ l r : Half, feistel ks.reverse (feistel ks l r).2 (feistel ks l r).1 = (r, l) := by
  induction ks with
  | nil => intro l r; rfl
  | cons k rest ih =>
    intro l r
    simp only [List.reverse_cons, feistel_append, feistel_cons, ih, feistel_nil]
    simp

/-- F depends on its operands only through the mixed value `E(H) ^ K` (R187). -/
theorem roundF_congr {h h' : Half} {k k' : RoundKey}
    (heq : permute 48 tableE h ^^^ k = permute 48 tableE h' ^^^ k') : roundF h k = roundF h' k' := by
  simp [roundF, heq]

end Sys2Proof.Machine
end

