-- ==== Sys2Proof/Laws/Decode.lean ====
section
/-! SUPPORT. The fields of a command word, and the word its fields make. -/

namespace Sys2Proof

@[simp] theorem fieldRsvd_commandWord (opc mod : BitVec 4) : fieldRsvd (commandWord opc mod) = 0 := by
  revert opc mod; decide +kernel

@[simp] theorem fieldOpc_commandWord (opc mod : BitVec 4) : fieldOpc (commandWord opc mod) = opc := by
  revert opc mod; decide +kernel

@[simp] theorem fieldMod_commandWord (opc mod : BitVec 4) : fieldMod (commandWord opc mod) = mod := by
  revert opc mod; decide +kernel

/-- The bits of a command word: MOD, then OPC, then zeros (R70). -/
theorem commandWord_getLsbD (opc mod : BitVec 4) (i : Nat) :
    (commandWord opc mod).getLsbD i = if i < 4 then mod.getLsbD i else opc.getLsbD (i - 4) := by
  have h : (commandWord opc mod).getLsbD i = BitVec.getLsbD (w := 56 + 4 + 4) (0#56 ++ opc ++ mod) i := rfl
  rw [h, BitVec.getLsbD_append, BitVec.getLsbD_append, BitVec.getLsbD_zero]
  by_cases h4 : i - 4 < 4
  · simp [h4]
  · have hge : opc.getLsbD (i - 4) = false := BitVec.getLsbD_of_ge _ _ (by omega)
    by_cases h5 : i < 4 <;> simp [h4, h5, hge]

/-- A word whose reserved bits are 0 is the command word of its two fields (R70). -/
theorem commandWord_fields {w : Word} (h : fieldRsvd w = 0) : commandWord (fieldOpc w) (fieldMod w) = w := by
  have high : ∀ i, 8 ≤ i → i < 64 → w.getLsbD i = false := by
    intro i h8 h64
    have hz := congrArg (fun v : BitVec 56 => v.getLsbD (i - 8)) h
    have hi : 8 + (i - 8) = i := by omega
    have hlt : i - 8 < 56 := by omega
    simpa [fieldRsvd, BitVec.getLsbD_extractLsb', hlt, hi] using hz
  apply BitVec.eq_of_getLsbD_eq
  intro i hi
  rw [commandWord_getLsbD]
  split
  · simp [fieldMod, *]
  · have hi4 : 4 + (i - 4) = i := by omega
    by_cases h8 : i < 8
    · have hlt : i - 4 < 4 := by omega
      simp only [fieldOpc, BitVec.getLsbD_extractLsb', hi4, hlt, decide_true, Bool.true_and]
    · have hge : ¬ i - 4 < 4 := by omega
      simp only [fieldOpc, BitVec.getLsbD_extractLsb', hge, decide_false, Bool.false_and]
      exact (high i (by omega) hi).symm

/-- What the decoder does with a word of the one command format. -/
theorem decode_commandWord (opc mod : BitVec 4) : decode (commandWord opc mod) = decodeFields opc mod := by
  simp [decode]

end Sys2Proof
end

