-- ==== Sys2Proof/Laws/State.lean ====
section
/-! SUPPORT. One lemma per field per shared update of State, so that no later proof unfolds a record update. -/

namespace Sys2Proof.Machine

variable (s : State)

/-! ## complete -/

@[simp] theorem State.complete_desBase (code : Err) : (s.complete code).desBase = s.desBase := rfl
@[simp] theorem State.complete_din (code : Err) : (s.complete code).din = s.din := rfl
@[simp] theorem State.complete_dout (code : Err) : (s.complete code).dout = s.dout := rfl
@[simp] theorem State.complete_rk (code : Err) : (s.complete code).rk = s.rk := rfl
@[simp] theorem State.complete_err (code : Err) : (s.complete code).err = code := rfl
@[simp] theorem State.complete_keyed (code : Err) : (s.complete code).keyed = s.keyed := rfl
@[simp] theorem State.complete_dir (code : Err) : (s.complete code).dir = s.dir := rfl
@[simp] theorem State.complete_fatal (code : Err) : (s.complete code).fatal = s.fatal := rfl
@[simp] theorem State.complete_cur (code : Err) : (s.complete code).cur = s.cur := rfl
@[simp] theorem State.complete_host (code : Err) : (s.complete code).host = s.host := rfl
@[simp] theorem State.complete_reads (code : Err) : (s.complete code).reads = s.reads := rfl
@[simp] theorem State.complete_completions (code : Err) : (s.complete code).completions = s.completions ++ [code] := rfl
@[simp] theorem State.complete_freeCount (code : Err) : (s.complete code).freeCount = s.freeCount := rfl

/-! ## raiseErr -/

@[simp] theorem State.raiseErr_desBase (code : Err) : (s.raiseErr code).desBase = s.desBase := rfl
@[simp] theorem State.raiseErr_din (code : Err) : (s.raiseErr code).din = s.din := rfl
@[simp] theorem State.raiseErr_dout (code : Err) : (s.raiseErr code).dout = s.dout := rfl
@[simp] theorem State.raiseErr_rk (code : Err) : (s.raiseErr code).rk = s.rk := rfl
@[simp] theorem State.raiseErr_err (code : Err) : (s.raiseErr code).err = code := rfl
@[simp] theorem State.raiseErr_keyed (code : Err) : (s.raiseErr code).keyed = s.keyed := rfl
@[simp] theorem State.raiseErr_dir (code : Err) : (s.raiseErr code).dir = s.dir := rfl
@[simp] theorem State.raiseErr_fatal (code : Err) : (s.raiseErr code).fatal = s.fatal := rfl
@[simp] theorem State.raiseErr_cur (code : Err) : (s.raiseErr code).cur = s.cur := rfl
@[simp] theorem State.raiseErr_host (code : Err) : (s.raiseErr code).host = s.host := rfl
@[simp] theorem State.raiseErr_reads (code : Err) : (s.raiseErr code).reads = s.reads := rfl
@[simp] theorem State.raiseErr_completions (code : Err) : (s.raiseErr code).completions = s.completions ++ [code] := rfl
@[simp] theorem State.raiseErr_freeCount (code : Err) : (s.raiseErr code).freeCount = s.freeCount := rfl

/-! ## succeed -/

@[simp] theorem State.succeed_desBase : (s.succeed).desBase = s.desBase := rfl
@[simp] theorem State.succeed_din : (s.succeed).din = s.din := rfl
@[simp] theorem State.succeed_dout : (s.succeed).dout = s.dout := rfl
@[simp] theorem State.succeed_rk : (s.succeed).rk = s.rk := rfl
@[simp] theorem State.succeed_err : (s.succeed).err = .ok := rfl
@[simp] theorem State.succeed_keyed : (s.succeed).keyed = s.keyed := rfl
@[simp] theorem State.succeed_dir : (s.succeed).dir = s.dir := rfl
@[simp] theorem State.succeed_fatal : (s.succeed).fatal = s.fatal := rfl
@[simp] theorem State.succeed_cur : (s.succeed).cur = s.cur := rfl
@[simp] theorem State.succeed_host : (s.succeed).host = s.host := rfl
@[simp] theorem State.succeed_reads : (s.succeed).reads = s.reads := rfl
@[simp] theorem State.succeed_completions : (s.succeed).completions = s.completions ++ [.ok] := rfl
@[simp] theorem State.succeed_freeCount : (s.succeed).freeCount = s.freeCount := rfl

/-! ## deliver -/

@[simp] theorem State.deliver_desBase (v : Word) : (s.deliver v).desBase = s.desBase := rfl
@[simp] theorem State.deliver_din (v : Word) : (s.deliver v).din = s.din := rfl
@[simp] theorem State.deliver_dout (v : Word) : (s.deliver v).dout = v := rfl
@[simp] theorem State.deliver_rk (v : Word) : (s.deliver v).rk = s.rk := rfl
@[simp] theorem State.deliver_err (v : Word) : (s.deliver v).err = .ok := rfl
@[simp] theorem State.deliver_keyed (v : Word) : (s.deliver v).keyed = s.keyed := rfl
@[simp] theorem State.deliver_dir (v : Word) : (s.deliver v).dir = s.dir := rfl
@[simp] theorem State.deliver_fatal (v : Word) : (s.deliver v).fatal = s.fatal := rfl
@[simp] theorem State.deliver_cur (v : Word) : (s.deliver v).cur = s.cur := rfl
@[simp] theorem State.deliver_host (v : Word) : (s.deliver v).host = s.host := rfl
@[simp] theorem State.deliver_reads (v : Word) : (s.deliver v).reads = s.reads := rfl
@[simp] theorem State.deliver_completions (v : Word) : (s.deliver v).completions = s.completions ++ [.ok] := rfl
@[simp] theorem State.deliver_freeCount (v : Word) : (s.deliver v).freeCount = s.freeCount := rfl

/-! ## forgetRk -/

@[simp] theorem State.forgetRk_desBase : (s.forgetRk).desBase = s.desBase := rfl
@[simp] theorem State.forgetRk_din : (s.forgetRk).din = s.din := rfl
@[simp] theorem State.forgetRk_dout : (s.forgetRk).dout = s.dout := rfl
@[simp] theorem State.forgetRk_rk : (s.forgetRk).rk = Config.unspecifiedRk s.desBase s.freeCount := rfl
@[simp] theorem State.forgetRk_err : (s.forgetRk).err = s.err := rfl
@[simp] theorem State.forgetRk_keyed : (s.forgetRk).keyed = s.keyed := rfl
@[simp] theorem State.forgetRk_dir : (s.forgetRk).dir = s.dir := rfl
@[simp] theorem State.forgetRk_fatal : (s.forgetRk).fatal = s.fatal := rfl
@[simp] theorem State.forgetRk_cur : (s.forgetRk).cur = s.cur := rfl
@[simp] theorem State.forgetRk_host : (s.forgetRk).host = s.host := rfl
@[simp] theorem State.forgetRk_reads : (s.forgetRk).reads = s.reads := rfl
@[simp] theorem State.forgetRk_completions : (s.forgetRk).completions = s.completions := rfl
@[simp] theorem State.forgetRk_freeCount : (s.forgetRk).freeCount = s.freeCount + 1 := rfl

/-! ## unkey -/

@[simp] theorem State.unkey_desBase : (s.unkey).desBase = s.desBase := rfl
@[simp] theorem State.unkey_din : (s.unkey).din = s.din := rfl
@[simp] theorem State.unkey_dout : (s.unkey).dout = s.dout := rfl
@[simp] theorem State.unkey_rk : (s.unkey).rk = Config.unspecifiedRk s.desBase s.freeCount := rfl
@[simp] theorem State.unkey_err : (s.unkey).err = s.err := rfl
@[simp] theorem State.unkey_keyed : (s.unkey).keyed = false := rfl
@[simp] theorem State.unkey_dir : (s.unkey).dir = .encrypt := rfl
@[simp] theorem State.unkey_fatal : (s.unkey).fatal = s.fatal := rfl
@[simp] theorem State.unkey_cur : (s.unkey).cur = 0 := rfl
@[simp] theorem State.unkey_host : (s.unkey).host = s.host := rfl
@[simp] theorem State.unkey_reads : (s.unkey).reads = s.reads := rfl
@[simp] theorem State.unkey_completions : (s.unkey).completions = s.completions := rfl
@[simp] theorem State.unkey_freeCount : (s.unkey).freeCount = s.freeCount + 1 := rfl

/-! ## install -/

@[simp] theorem State.install_desBase (k : RoundKeys) (d : Direction) : (s.install k d).desBase = s.desBase := rfl
@[simp] theorem State.install_din (k : RoundKeys) (d : Direction) : (s.install k d).din = s.din := rfl
@[simp] theorem State.install_dout (k : RoundKeys) (d : Direction) : (s.install k d).dout = s.dout := rfl
@[simp] theorem State.install_rk (k : RoundKeys) (d : Direction) : (s.install k d).rk = k := rfl
@[simp] theorem State.install_err (k : RoundKeys) (d : Direction) : (s.install k d).err = s.err := rfl
@[simp] theorem State.install_keyed (k : RoundKeys) (d : Direction) : (s.install k d).keyed = true := rfl
@[simp] theorem State.install_dir (k : RoundKeys) (d : Direction) : (s.install k d).dir = d := rfl
@[simp] theorem State.install_fatal (k : RoundKeys) (d : Direction) : (s.install k d).fatal = s.fatal := rfl
@[simp] theorem State.install_cur (k : RoundKeys) (d : Direction) : (s.install k d).cur = 0 := rfl
@[simp] theorem State.install_host (k : RoundKeys) (d : Direction) : (s.install k d).host = s.host := rfl
@[simp] theorem State.install_reads (k : RoundKeys) (d : Direction) : (s.install k d).reads = s.reads := rfl
@[simp] theorem State.install_completions (k : RoundKeys) (d : Direction) : (s.install k d).completions = s.completions := rfl
@[simp] theorem State.install_freeCount (k : RoundKeys) (d : Direction) : (s.install k d).freeCount = s.freeCount := rfl

/-! ## giveHost -/

@[simp] theorem State.giveHost_desBase (v : Word) : (s.giveHost v).desBase = s.desBase := rfl
@[simp] theorem State.giveHost_din (v : Word) : (s.giveHost v).din = s.din := rfl
@[simp] theorem State.giveHost_dout (v : Word) : (s.giveHost v).dout = s.dout := rfl
@[simp] theorem State.giveHost_rk (v : Word) : (s.giveHost v).rk = s.rk := rfl
@[simp] theorem State.giveHost_err (v : Word) : (s.giveHost v).err = s.err := rfl
@[simp] theorem State.giveHost_keyed (v : Word) : (s.giveHost v).keyed = s.keyed := rfl
@[simp] theorem State.giveHost_dir (v : Word) : (s.giveHost v).dir = s.dir := rfl
@[simp] theorem State.giveHost_fatal (v : Word) : (s.giveHost v).fatal = s.fatal := rfl
@[simp] theorem State.giveHost_cur (v : Word) : (s.giveHost v).cur = s.cur := rfl
@[simp] theorem State.giveHost_host (v : Word) : (s.giveHost v).host = s.host := rfl
@[simp] theorem State.giveHost_reads (v : Word) : (s.giveHost v).reads = s.reads ++ [v] := rfl
@[simp] theorem State.giveHost_completions (v : Word) : (s.giveHost v).completions = s.completions := rfl
@[simp] theorem State.giveHost_freeCount (v : Word) : (s.giveHost v).freeCount = s.freeCount := rfl

/-! ## resetEngine -/

@[simp] theorem State.resetEngine_desBase : (s.resetEngine).desBase = s.desBase := rfl
@[simp] theorem State.resetEngine_din : (s.resetEngine).din = 0 := rfl
@[simp] theorem State.resetEngine_dout : (s.resetEngine).dout = 0 := rfl
@[simp] theorem State.resetEngine_rk : (s.resetEngine).rk = Config.unspecifiedRk s.desBase s.freeCount := rfl
@[simp] theorem State.resetEngine_err : (s.resetEngine).err = .ok := rfl
@[simp] theorem State.resetEngine_keyed : (s.resetEngine).keyed = false := rfl
@[simp] theorem State.resetEngine_dir : (s.resetEngine).dir = .encrypt := rfl
@[simp] theorem State.resetEngine_fatal : (s.resetEngine).fatal = false := rfl
@[simp] theorem State.resetEngine_cur : (s.resetEngine).cur = 0 := rfl
@[simp] theorem State.resetEngine_host : (s.resetEngine).host = s.host := rfl
@[simp] theorem State.resetEngine_reads : (s.resetEngine).reads = s.reads := rfl
@[simp] theorem State.resetEngine_completions : (s.resetEngine).completions = s.completions := rfl
@[simp] theorem State.resetEngine_freeCount : (s.resetEngine).freeCount = s.freeCount + 1 := rfl

end Sys2Proof.Machine
end

