-- ==== Sys2Proof/Laws/Ops.lean ====
section
/-! SUPPORT. What each shared operation of Machine/Ops.lean can do, said once. -/

namespace Sys2Proof.Machine

theorem raiseErr_eq_complete (s : State) (code : Err) : s.raiseErr code = s.complete code := rfl

/-- The first check of R235 has two outcomes. -/
theorem unlessHalted_cases (body : State → State) (s : State) :
    (s.fatal = true ∧ unlessHalted body s = s.complete .halted) ∨ (s.fatal = false ∧ unlessHalted body s = body s) := by
  cases h : s.fatal <;> simp [unlessHalted, h, raiseErr_eq_complete]

theorem unlessHalted_of_fatal {s : State} (h : s.fatal = true) (body : State → State) :
    unlessHalted body s = s.complete .halted := by
  simp [unlessHalted, h, raiseErr_eq_complete]

theorem unlessHalted_of_running {s : State} (h : s.fatal = false) (body : State → State) :
    unlessHalted body s = body s := by
  simp [unlessHalted, h]

/-- The key check has two outcomes. -/
theorem whenKeyed_cases (body : State → State) (s : State) :
    (s.keyed = false ∧ whenKeyed body s = s.complete .notKeyed) ∨ (s.keyed = true ∧ whenKeyed body s = body s) := by
  cases h : s.keyed <;> simp [whenKeyed, h, raiseErr_eq_complete]

theorem whenKeyed_of_unkeyed {s : State} (h : s.keyed = false) (body : State → State) :
    whenKeyed body s = s.complete .notKeyed := by
  simp [whenKeyed, h, raiseErr_eq_complete]

theorem whenKeyed_of_keyed {s : State} (h : s.keyed = true) (body : State → State) : whenKeyed body s = body s := by
  simp [whenKeyed, h]

theorem illegalCommand_of_running {s : State} (h : s.fatal = false) :
    illegalCommand s = s.complete .illegalCommand :=
  unlessHalted_of_running h _

theorem illegalCommand_of_fatal {s : State} (h : s.fatal = true) : illegalCommand s = s.complete .halted :=
  unlessHalted_of_fatal h _

/-! ## The register window -/

theorem regAt_offset (r : Reg) : regAt r.offset = some r := by cases r <;> rfl

theorem regAt_eq_some {off : Nat} {r : Reg} (h : regAt off = some r) : off = r.offset := by
  unfold regAt at h
  split at h
  · cases h; assumption
  · split at h
    · cases h; assumption
    · split at h
      · cases h; assumption
      · split at h
        · cases h; assumption
        · cases h

/-- The access of each register is admitted at its own address. -/
theorem windowReg_offset (base : Nat) (r : Reg) : windowReg base (base + r.offset) 8 = some r := by
  have hlt : r.offset < 0x20 := by cases r <;> decide
  have : base + r.offset < base + 0x20 := by omega
  simp [windowReg, Config.accessBytes, Config.windowBytes, hlt, regAt_offset]

/-- An admitted access is eight bytes wide, at the register's address (R54). -/
theorem windowReg_eq_some {base addr nbytes : Nat} {r : Reg} (h : windowReg base addr nbytes = some r) :
    nbytes = 8 ∧ addr = base + r.offset := by
  unfold windowReg at h
  split at h
  · rename_i hc
    obtain ⟨hn, hb, -⟩ := hc
    have := regAt_eq_some h
    exact ⟨hn, by omega⟩
  · cases h

/-- Exactly the four aligned eight-byte accesses are admitted (R54). -/
theorem windowReg_eq_some_iff {base addr nbytes : Nat} {r : Reg} :
    windowReg base addr nbytes = some r ↔ nbytes = 8 ∧ addr = base + r.offset := by
  refine ⟨windowReg_eq_some, ?_⟩
  rintro ⟨rfl, rfl⟩
  exact windowReg_offset base r

theorem windowReg_eq_none_iff {base addr nbytes : Nat} :
    windowReg base addr nbytes = none ↔ ∀ r : Reg, ¬ (nbytes = 8 ∧ addr = base + r.offset) := by
  constructor
  · intro h r hr
    rw [windowReg_eq_some_iff.2 hr] at h
    cases h
  · intro h
    cases hw : windowReg base addr nbytes with
    | none => rfl
    | some r => exact absurd (windowReg_eq_some hw) (h r)

end Sys2Proof.Machine
end

