-- ==== Sys2Proof/Laws/Step.lean ====
section
/-! SUPPORT. What one step does with each kind of host event. -/

namespace Sys2Proof.Machine

theorem step_nil {s : State} (h : s.host = []) : step s = .next s := by simp [step, h]

theorem step_cons {s : State} {e : HostEvent} {rest : List HostEvent} (h : s.host = e :: rest) :
    step s = perform e { s with host := rest } := by
  simp [step, h]

/-- A write at a register's address reaches that register. -/
theorem perform_write (s : State) (r : Reg) (v : Word) :
    perform (.write (s.desBase + r.offset) 8 v) s = writeReg r v s := by
  simp [perform, windowReg_offset]

/-- A read at a register's address returns it to the host. -/
theorem perform_read (s : State) (r : Reg) :
    perform (.read (s.desBase + r.offset) 8) s = .next (s.giveHost (readReg r s)) := by
  simp [perform, windowReg_offset]

/-- What a host event can do, once and for all. -/
theorem perform_cases {e : HostEvent} {s t : State} (h : perform e s = .next t) :
    (∃ v, e = .write (s.desBase + Reg.offset .din) 8 v ∧ t = { s with din := v }) ∨
      (∃ v, (e = .write (s.desBase + Reg.offset .dout) 8 v ∨ e = .write (s.desBase + Reg.offset .status) 8 v) ∧ t = s) ∨
      (∃ v, e = .write (s.desBase + Reg.offset .cmd) 8 v ∧ runCommand v s = .next t) ∨
      (∃ r : Reg, e = .read (s.desBase + r.offset) 8 ∧ t = s.giveHost (readReg r s)) ∨
      (e = .reset ∧ t = s.resetEngine) := by
  cases e with
  | write addr nbytes v =>
    cases hw : windowReg s.desBase addr nbytes with
    | none => simp [perform, hw] at h
    | some r =>
      obtain ⟨rfl, rfl⟩ := windowReg_eq_some hw
      rw [perform_write] at h
      cases r with
      | din => exact .inl ⟨v, rfl, by simpa [writeReg] using h.symm⟩
      | dout => exact .inr (.inl ⟨v, .inl rfl, by simpa [writeReg] using h.symm⟩)
      | status => exact .inr (.inl ⟨v, .inr rfl, by simpa [writeReg] using h.symm⟩)
      | cmd => exact .inr (.inr (.inl ⟨v, rfl, h⟩))
  | read addr nbytes =>
    cases hw : windowReg s.desBase addr nbytes with
    | none => simp [perform, hw] at h
    | some r =>
      obtain ⟨rfl, rfl⟩ := windowReg_eq_some hw
      rw [perform_read] at h
      exact .inr (.inr (.inr (.inl ⟨r, rfl, by simpa using h.symm⟩)))
  | reset => exact .inr (.inr (.inr (.inr ⟨rfl, by simpa [perform] using h.symm⟩)))

/-- What a command can do: it is a legal command's meaning, or ILLEGAL. -/
theorem runCommand_cases {w : Word} {s t : State} (h : runCommand w s = .next t) :
    (∃ i, decode w = .ok i ∧ exec i s = .next t) ∨ (∃ e, decode w = .error e ∧ t = illegalCommand s) := by
  cases hd : decode w with
  | ok i => exact .inl ⟨i, rfl, by simpa [runCommand, hd] using h⟩
  | error e => exact .inr ⟨e, rfl, by simpa [runCommand, hd] using h.symm⟩

end Sys2Proof.Machine
end

