-- ==== Sys2Proof/Laws/Exec.lean ====
section
/-! SUPPORT. What every command does, whichever it is. -/

namespace Sys2Proof.Machine

/-- No command faults or is refused. -/
theorem exec_total (i : Instr) (s : State) : ∃ t, exec i s = .next t := by cases i <;> exact ⟨_, rfl⟩

/-- In the fatal state every command is HALTED. -/
theorem exec_of_fatal {i : Instr} {s t : State} (hf : s.fatal = true) (h : exec i s = .next t) :
    t = s.complete .halted := by
  cases i <;>
    (simp only [exec, execChkpar, execLoadkeyE, execLoadkeyD, loadKey, execXform, execRknext, execRkrewind, execFfunc,
        execSboxq, execPermIp, execPermFp, execPermPc1, execPermPc2, execPermE, execPermP, permCommand,
        unlessHalted_of_fatal hf, Host.Outcome.next.injEq] at h
     exact h.symm)

/-- In the fatal state every CMD write is HALTED, whatever its value. -/
theorem runCommand_of_fatal {s : State} (hf : s.fatal = true) (w : Word) :
    runCommand w s = .next (s.complete .halted) := by
  cases hd : decode w with
  | error e => simp [runCommand, hd, illegalCommand_of_fatal hf]
  | ok i =>
    obtain ⟨t, ht⟩ := exec_total i s
    simp [runCommand, hd, ht, exec_of_fatal hf ht]

/-- On an unkeyed engine that is not halted, a command that needs the key is NOT_KEYED: the four meanings open with the
same two guards. -/
theorem exec_of_unkeyed {i : Instr} {s : State} (hf : s.fatal = false) (hk : s.keyed = false)
    (hi : i = .xform ∨ i = .rknext ∨ i = .rkrewind ∨ ∃ k, i = .ffunc k) : exec i s = .next (s.complete .notKeyed) := by
  rcases hi with rfl | rfl | rfl | ⟨k, rfl⟩ <;>
    simp only [exec, execXform, execRknext, execRkrewind, execFfunc, unlessHalted_of_running hf, whenKeyed_of_unkeyed hk]

end Sys2Proof.Machine
end

