-- ==== Sys2Proof/Laws/PerInstr.lean ====
section
/-! SUPPORT. Statements for all commands, made per constructor. -/

namespace Sys2Proof.Laws.RoundTrip

/-- The decoder gives back a well-formed command from its own word. -/
def Statement (i : Instr) : Prop := i.wellFormed = true → decode (encode i) = .ok i

theorem chkpar : Statement .chkpar := fun _ => by rfl

theorem loadkeyE : Statement .loadkeyE := fun _ => by rfl

theorem loadkeyD : Statement .loadkeyD := fun _ => by rfl

theorem xform : Statement .xform := fun _ => by rfl

theorem rknext : Statement .rknext := fun _ => by rfl

theorem rkrewind : Statement .rkrewind := fun _ => by rfl

theorem ffunc (kidx : BitVec 4) : Statement (.ffunc kidx) := fun _ => by
  simp [encode, decode_commandWord, decodeFields]

theorem sboxq (mod : BitVec 4) : Statement (.sboxq mod) := fun h => by
  have hb : mod[3] = false := by simpa [Instr.wellFormed] using h
  simp [encode, decode_commandWord, decodeFields, decodeSboxq, hb]

theorem permIp : Statement .permIp := fun _ => by rfl

theorem permFp : Statement .permFp := fun _ => by rfl

theorem permPc1 : Statement .permPc1 := fun _ => by rfl

theorem permPc2 : Statement .permPc2 := fun _ => by rfl

theorem permE : Statement .permE := fun _ => by rfl

theorem permP : Statement .permP := fun _ => by rfl

end Sys2Proof.Laws.RoundTrip
end

