-- ==== Sys2Proof/Tests/Slice0.lean ====
section
/-! SUPPORT. The model's own tests. Expected values come from the rules' examples and from 95_test_vectors.md, named in each
section; the last section shows, for each statement with hypotheses, a state that meets them. -/

-- One theorem at a time: elaborating all of these at once takes a thread, and its stack, for each.
set_option Elab.async false

namespace Sys2Proof.Tests

open Sys2Proof.Machine

/-! ## Small states -/

/-- The next state, or `s` itself where there is none. -/
def nextOr (s : State) (o : Host.Outcome State Fault Refusal) : State :=
  match o with
  | .next t => t
  | .fault _ => s
  | .refused _ => s

/-- The state after one command. -/
def after (i : Instr) (s : State) : State := nextOr s (exec i s)

/-- Whether an outcome is a next state. -/
def isNext (o : Host.Outcome State Fault Refusal) : Bool :=
  match o with
  | .next _ => true
  | .fault _ => false
  | .refused _ => false

/-- The address an outcome's BusError names. -/
def busErrorAt (o : Host.Outcome State Fault Refusal) : Option Nat :=
  match o with
  | .fault (.busError addr) => some addr
  | .next _ => none
  | .refused _ => none

/-- Reset, with an operand in DIN. -/
def fresh (din : Word) : State := { State.reset with din := din }

/-- Keyed with the known-answer key of V1, with an operand in DIN. -/
def keyedBy (d : Direction) (din : Word) : State :=
  { State.reset with rk := buildSchedule 0x133457799BBCDFF1, keyed := true, dir := d, din := din }

/-- Keyed, with the traversal exhausted. -/
def exhausted : State := { keyedBy .encrypt 0 with cur := 16 }

/-- The fatal state. -/
def fatalState : State := { exhausted with fatal := true, err := .scheduleExhausted }

/-- A state with one pending host event, its window at 0x1000. -/
def pending (s : State) (e : HostEvent) : State := { s with desBase := 0x1000, host := [e] }

/-! ## WellFormed -/

theorem test_wf_refuses_sboxq_with_mod_bit_3 : (Instr.sboxq 0x8).wellFormed = false := by decide

theorem test_wf_accepts_sboxq_7 : (Instr.sboxq 0x7).wellFormed = true := by decide

/-! ## Decoding: each constructor by a word written out from R70 to R72 (V17 names most of them) -/

theorem test_decode_chkpar : decode 0x0000000000000010 = .ok .chkpar := by rfl

theorem test_decode_loadkeyE : decode 0x0000000000000020 = .ok .loadkeyE := by rfl

theorem test_decode_loadkeyD : decode 0x0000000000000021 = .ok .loadkeyD := by rfl

theorem test_decode_xform : decode 0x0000000000000030 = .ok .xform := by rfl

theorem test_decode_rknext : decode 0x0000000000000040 = .ok .rknext := by rfl

theorem test_decode_rkrewind : decode 0x0000000000000050 = .ok .rkrewind := by rfl

theorem test_decode_ffunc : decode 0x000000000000006F = .ok (.ffunc 0xF) := by rfl

theorem test_decode_sboxq : decode 0x0000000000000077 = .ok (.sboxq 0x7) := by rfl

theorem test_decode_permIp : decode 0x0000000000000080 = .ok .permIp := by rfl

theorem test_decode_permFp : decode 0x0000000000000081 = .ok .permFp := by rfl

theorem test_decode_permPc1 : decode 0x0000000000000082 = .ok .permPc1 := by rfl

theorem test_decode_permPc2 : decode 0x0000000000000083 = .ok .permPc2 := by rfl

theorem test_decode_permE : decode 0x0000000000000084 = .ok .permE := by rfl

theorem test_decode_permP : decode 0x0000000000000085 = .ok .permP := by rfl

/-- The illegal rows of V17. -/
theorem test_decode_illegal :
    decode 0x0 = .error .opcode ∧ decode 0x11 = .error .modifier ∧ decode 0x22 = .error .modifier ∧
      decode 0x78 = .error .modifier ∧ decode 0x86 = .error .modifier ∧ decode 0x90 = .error .opcode ∧
      decode 0xF0 = .error .opcode ∧ decode 0x130 = .error .reservedBits ∧
      decode 0x8000000000000010 = .error .reservedBits := by
  refine ⟨?_, ?_, ?_, ?_, ?_, ?_, ?_, ?_, ?_⟩ <;> rfl

/-- R77: 36 of the 256 values of CMD[7:0] are legal. -/
theorem test_decode_36_legal_bytes :
    ((List.range 256).countP fun w => (decodeTableWord 64 w).isSome) = 36 := by decide +kernel

/-! ## CHKPAR (V5, V13) -/

theorem test_chkpar_accepts_known_answer_key : (after .chkpar (fresh 0x133457799BBCDFF1)).err = .ok := by decide +kernel

theorem test_chkpar_rejects_even_first_byte :
    (after .chkpar (fresh 0x123457799BBCDFF1)).err = .invalidKey := by decide +kernel

/-! ## LOADKEY (R148, V2, V14) -/

theorem test_loadkeyE_status_and_last_key :
    statusWord (after .loadkeyE (fresh 0x133457799BBCDFF1)) = 0x10 ∧
      (after .loadkeyE (fresh 0x133457799BBCDFF1)).rk[15] = 0xCB3D8B0E17F5 := by decide +kernel

theorem test_loadkeyE_bad_key_unkeys :
    statusWord (after .loadkeyE { keyedBy .decrypt 0x123457799BBCDFF1 with cur := 5 }) = 0x1 := by decide +kernel

theorem test_loadkeyD_status_and_first_key :
    statusWord (after .loadkeyD (fresh 0x133457799BBCDFF1)) = 0x30 ∧
      (after .loadkeyD (fresh 0x133457799BBCDFF1)).rk[0] = 0x1B02EFFC7072 := by decide +kernel

/-- The whole schedule of V2. -/
theorem test_schedule_of_known_answer_key :
    (buildSchedule 0x133457799BBCDFF1).toList =
      [0x1B02EFFC7072, 0x79AED9DBC9E5, 0x55FC8A42CF99, 0x72ADD6DB351D, 0x7CEC07EB53A8, 0x63A53E507B2F,
       0xEC84B7F618BC, 0xF78A3AC13BFB, 0xE0DBEBEDE781, 0xB1F347BA464F, 0x215FD3DED386, 0x7571F59467E9,
       0x97C5D1FABA41, 0x5F43B7F2E73A, 0xBF918D3D3F0A, 0xCB3D8B0E17F5] := by decide +kernel

/-! ## XFORM (V1) -/

theorem test_xform_known_answer :
    (after .xform (keyedBy .encrypt 0x0123456789ABCDEF)).dout = 0x85E813540F0AB405 := by decide +kernel

theorem test_xform_known_answer_decrypt :
    (after .xform (keyedBy .decrypt 0x85E813540F0AB405)).dout = 0x0123456789ABCDEF := by decide +kernel

/-! ## RKNEXT and RKREWIND (R152, V19, V6) -/

theorem test_rknext_decrypt_delivers_last_key_first :
    (after .rknext (keyedBy .decrypt 0)).dout = 0x0000CB3D8B0E17F5 ∧
      statusWord (after .rknext (keyedBy .decrypt 0)) = 0x130 := by decide +kernel

theorem test_rknext_exhaustion_is_fatal :
    statusWord (after .rknext { exhausted with dir := .decrypt }) = 0x1072 := by decide +kernel

theorem test_rkrewind_after_sixteen : statusWord (after .rkrewind exhausted) = 0x10 := by decide +kernel

theorem test_rkrewind_cannot_leave_fatal :
    statusWord (after .rkrewind { fatalState with dir := .decrypt }) = 0x1075 := by decide +kernel

/-! ## FFUNC (R188, V12) -/

theorem test_ffunc_ignores_the_upper_half :
    (after (.ffunc 0) (keyedBy .encrypt 0xFFFFFFFFF0AAF0AA)).dout = 0x00000000234AA9BB := by decide +kernel

theorem test_ffunc_index_is_absolute :
    (after (.ffunc 15) (keyedBy .decrypt 0x00000000F0AAF0AA)).dout = 0x00000000D1425B7C := by decide +kernel

/-! ## SBOXQ (R121, V10) -/

theorem test_sboxq_first_lookup_of_the_known_answer : (after (.sboxq 0) (fresh 0x18)).dout = 0x5 := by decide +kernel

theorem test_sboxq_row_bit_order : (after (.sboxq 0) (fresh 0x01)).dout = 0x0 := by decide +kernel

/-! ## PERM (R120, V9) -/

theorem test_permIp_block : (after .permIp (fresh 0x0123456789ABCDEF)).dout = 0xCC00CCFFF0AAF0AA := by decide +kernel

theorem test_permFp_block : (after .permFp (fresh 0x0123456789ABCDEF)).dout = 0xFF330FAA00330FAA := by decide +kernel

theorem test_permPc1_block : (after .permPc1 (fresh 0x0123456789ABCDEF)).dout = 0x00F0CCAA0AACCF00 := by decide +kernel

theorem test_permPc2_block : (after .permPc2 (fresh 0x0023456789ABCDEF)).dout = 0x0000921C7095F77B := by decide +kernel

theorem test_permE_ignores_the_upper_half :
    (after .permE (fresh 0xFFFFFFFF89ABCDEF)).dout = 0x0000C53D57E5BF5F := by decide +kernel

theorem test_permP_block : (after .permP (fresh 0x0000000089ABCDEF)).dout = 0x0000000099DE6D6D := by decide +kernel

/-! ## The interface: withFetchWord, the window, reset, the notation of R78 and R79 -/

/-- V17: SBOXQ box 7 as the first command after reset; X = 0 gives S8's first entry, 0xD (V10). -/
theorem test_fetch_word_runs_sboxq :
    (nextOr State.reset (step (State.reset.withFetchWord 64 0x77))).dout = 0xD := by decide +kernel

/-- P6, line 2: a four-byte write is refused. -/
theorem test_narrow_write_is_a_bus_error :
    busErrorAt (step (pending State.reset (.write 0x1004 4 0))) = some 0x1004 := by decide

/-- P6, line 5: CMD reads 0. -/
theorem test_cmd_reads_zero : (nextOr State.reset (step (pending State.reset (.read 0x1018 8)))).reads = [0] := by decide

/-- P2, lines 29 and 30: reset leaves the fatal state and clears STATUS. -/
theorem test_reset_clears_status : statusWord (nextOr fatalState (step (pending fatalState .reset))) = 0 := by decide +kernel

/-- R79: the expansion of ENCRYPT, as P1 writes its bus accesses. -/
theorem test_encrypt_expansion :
    encryptSequence 0 0x133457799BBCDFF1 0x0123456789ABCDEF =
      [.write 0x00 8 0x133457799BBCDFF1, .write 0x18 8 0x20, .write 0x00 8 0x0123456789ABCDEF, .write 0x18 8 0x30,
       .read 0x08 8] := by decide +kernel

/-- R52: a buffer's first byte is the block's most significant. -/
theorem test_buffer_is_big_endian :
    blockOfBytes #v[0x01, 0x23, 0x45, 0x67, 0x89, 0xAB, 0xCD, 0xEF] = 0x0123456789ABCDEF := by decide +kernel

/-! ## Witnesses: states that meet the hypotheses of the statements -/

theorem test_witness_StepRunsDecodedCommand :
    (pending State.reset (.write 0x1018 8 0x30)).host =
        .write ((pending State.reset (.write 0x1018 8 0x30)).desBase + 0x18) 8 0x30 :: [] ∧
      decode 0x30 = .ok .xform := by
  constructor <;> rfl

/-- One word for each disjunct of the illegal forms, each at the boundary of its range. -/
theorem test_witness_IllegalCommandChangesOnlyErr :
    (pending State.reset (.write 0x1018 8 0x130)).host = [.write 0x1018 8 0x130] ∧ State.reset.fatal = false ∧
      (0x100#64).extractLsb' 8 56 ≠ 0 ∧ (0x00#64).extractLsb' 4 4 = 0 ∧ 9 ≤ ((0x90#64).extractLsb' 4 4).toNat ∧
      ((0x11#64).extractLsb' 4 4 = 1 ∧ (0x11#64).extractLsb' 0 4 ≠ 0) ∧
      ((0x31#64).extractLsb' 4 4 = 3 ∧ (0x31#64).extractLsb' 0 4 ≠ 0) ∧
      ((0x4F#64).extractLsb' 4 4 = 4 ∧ (0x4F#64).extractLsb' 0 4 ≠ 0) ∧
      ((0x51#64).extractLsb' 4 4 = 5 ∧ (0x51#64).extractLsb' 0 4 ≠ 0) ∧
      ((0x22#64).extractLsb' 4 4 = 2 ∧ 2 ≤ ((0x22#64).extractLsb' 0 4).toNat) ∧
      ((0x78#64).extractLsb' 4 4 = 7 ∧ 8 ≤ ((0x78#64).extractLsb' 0 4).toNat) ∧
      ((0x86#64).extractLsb' 4 4 = 8 ∧ 6 ≤ ((0x86#64).extractLsb' 0 4).toNat) := by decide +kernel

/-- Admitted and refused accesses at the edges of the window at 0x1000. -/
theorem test_witness_OnlyAdmittedAccessesArePerformed :
    isNext (step (pending State.reset (.read 0x1000 8))) = true ∧
      isNext (step (pending State.reset (.write 0x1018 8 0x00))) = true ∧
      busErrorAt (step (pending State.reset (.read 0x1020 8))) = some 0x1020 ∧
      busErrorAt (step (pending State.reset (.write 0x0FF8 8 0))) = some 0x0FF8 ∧
      busErrorAt (step (pending State.reset (.read 0x1008 4))) = some 0x1008 ∧
      busErrorAt (step (pending State.reset (.write 0x101C 8 0))) = some 0x101C := by decide +kernel

theorem test_witness_ReadReturnsRegister :
    (pending State.reset (.read 0x1000 8)).host = [.read (0x1000 + 0x00) 8] ∧
      (pending State.reset (.read 0x1008 8)).host = [.read (0x1000 + 0x08) 8] ∧
      (pending State.reset (.read 0x1010 8)).host = [.read (0x1000 + 0x10) 8] ∧
      (pending State.reset (.read 0x1018 8)).host = [.read (0x1000 + 0x18) 8] := by decide

theorem test_witness_WritesToTheWindow :
    (pending State.reset (.write 0x1000 8 5)).host = [.write (0x1000 + 0x00) 8 5] ∧
      (pending State.reset (.write 0x1008 8 5)).host = [.write (0x1000 + 0x08) 8 5] ∧
      (pending State.reset (.write 0x1010 8 5)).host = [.write (0x1000 + 0x10) 8 5] ∧
      (pending State.reset (.write 0x1018 8 5)).host = [.write (0x1000 + 0x18) 8 5] := by decide

theorem test_witness_IdleHoldsState : State.reset.host = [] := by decide

theorem test_witness_ResetInput : (pending fatalState .reset).host = .reset :: [] := by decide

theorem test_witness_ResetInputFrame : (pending exhausted .reset).host = .reset :: [] := by decide

/-- A step that leaves the fatal state, and steps that change KEYED by LOADKEY and by reset. -/
theorem test_witness_WhatLeavesFatalAndChangesKeyed :
    fatalState.fatal = true ∧ (nextOr fatalState (step (pending fatalState .reset))).fatal = false ∧
      (nextOr State.reset (step (pending (fresh 0x133457799BBCDFF1) (.write 0x1018 8 0x21)))).keyed = true ∧
      (nextOr fatalState (step (pending (keyedBy .encrypt 0) .reset))).keyed = false := by decide +kernel

theorem test_witness_ChkparOutcome :
    ((fresh 0x0101010101010101).fatal = false ∧ parityOk (fresh 0x0101010101010101).din = true) ∧
      ((fresh 0).fatal = false ∧ parityOk (fresh 0).din = false) ∧ fatalState.fatal = true := by decide +kernel

theorem test_witness_LoadkeyOutcome :
    ((fresh 0xFEFEFEFEFEFEFEFE).fatal = false ∧ parityOk (fresh 0xFEFEFEFEFEFEFEFE).din = true) ∧
      ((fresh 0x0101010101010100).fatal = false ∧ parityOk (fresh 0x0101010101010100).din = false) ∧
      2 ≤ (0x2 : BitVec 4).toNat ∧ fatalState.fatal = true := by decide +kernel

/-- A keyed engine with a bad key in DIN, an unkeyed engine, and an unkeyed engine with a step that keys it. -/
theorem test_witness_FailedLoadkeyUnkeys :
    ((keyedBy .decrypt 0x0101010101010100).fatal = false ∧ parityOk (keyedBy .decrypt 0x0101010101010100).din = false) ∧
      (State.reset.fatal = false ∧ State.reset.keyed = false) ∧
      (pending (fresh 0x133457799BBCDFF1) (.write 0x1018 8 0x21)).keyed = false ∧
      (nextOr State.reset (step (pending (fresh 0x133457799BBCDFF1) (.write 0x1018 8 0x21)))).keyed = true := by
  decide +kernel

/-- Two different keys with the same 56 key bits. -/
theorem test_witness_ParityBitsCarryNoKey :
    0x0101010101010101#64 &&& 0xFEFEFEFEFEFEFEFE = 0x0000000000000000#64 &&& 0xFEFEFEFEFEFEFEFE := by decide

theorem test_witness_DirectionOrdersTheKeys : (15 : Fin 16).val = 15 - (0 : Fin 16).val := by decide

theorem test_witness_RknextOutcome :
    ((keyedBy .encrypt 0).fatal = false ∧ (keyedBy .encrypt 0).keyed = true ∧ { keyedBy .encrypt 0 with cur := 15 }.cur.val < 16) ∧
      (exhausted.fatal = false ∧ exhausted.keyed = true ∧ exhausted.cur = 16) ∧
      (State.reset.fatal = false ∧ State.reset.keyed = false) ∧ fatalState.fatal = true := by decide +kernel

theorem test_witness_RkrewindOutcome :
    (exhausted.fatal = false ∧ exhausted.keyed = true) ∧ (State.reset.fatal = false ∧ State.reset.keyed = false) ∧
      fatalState.fatal = true := by decide +kernel

theorem test_witness_TraversalDeliversEveryKeyOnce :
    (keyedBy .decrypt 0).fatal = false ∧ (keyedBy .decrypt 0).keyed = true ∧ (keyedBy .decrypt 0).cur = 0 := by
  decide +kernel

theorem test_witness_PermuteCopiesBits : tableE.length = 48 ∧ ∀ p ∈ tableE, 1 ≤ p ∧ p ≤ 32 := by decide

/-- Two different operand pairs with one mixed value. -/
theorem test_witness_RoundFunctionComplement :
    permute 48 tableE (0x00000000 : Half) ^^^ 0xFFFFFFFFFFFF = permute 48 tableE (0xFFFFFFFF : Half) ^^^ 0x000000000000 := by
  decide +kernel

theorem test_witness_FfuncOutcome :
    ((keyedBy .encrypt 0).fatal = false ∧ (keyedBy .encrypt 0).keyed = true) ∧
      (State.reset.fatal = false ∧ State.reset.keyed = false) ∧ fatalState.fatal = true := by decide +kernel

theorem test_witness_SboxqOutcome :
    (State.reset.fatal = false ∧ (0x7 : BitVec 4).toNat = (7 : Fin 8).val) ∧ (0x7 : BitVec 4).toNat ≤ 7 ∧
      8 ≤ (0x8 : BitVec 4).toNat ∧
      fatalState.fatal = true := by decide +kernel

theorem test_witness_PermOutcome :
    State.reset.fatal = false ∧ 6 ≤ (0x6 : BitVec 4).toNat ∧ fatalState.fatal = true := by decide +kernel

theorem test_witness_XformOutcome :
    ((keyedBy .decrypt 1).fatal = false ∧ (keyedBy .decrypt 1).keyed = true) ∧
      (State.reset.fatal = false ∧ State.reset.keyed = false) ∧ fatalState.fatal = true := by decide +kernel

/-- Two states that agree on DIN, DIR and RK and differ in CUR and DOUT. -/
theorem test_witness_XformIsIndependentOfTheRest :
    exhausted.fatal = false ∧ exhausted.keyed = true ∧ (keyedBy .encrypt 0).keyed = true ∧
      exhausted.din = (keyedBy .encrypt 0).din ∧ exhausted.dir = (keyedBy .encrypt 0).dir ∧
      exhausted.rk = (keyedBy .encrypt 0).rk ∧ exhausted.cur ≠ (keyedBy .encrypt 0).cur := by decide +kernel

/-- V16: the schedule of the weak key 0x1F1F1F1F0E0E0E0E is one repeated key. -/
theorem test_witness_EqualKeysMakeAnInvolution :
    ∀ i : Fin 16, (buildSchedule 0x1F1F1F1F0E0E0E0E)[i] = (buildSchedule 0x1F1F1F1F0E0E0E0E)[0] := by decide +kernel

theorem test_witness_ErrorPriority :
    (pending fatalState (.write 0x1018 8 0x00)).host = [.write (0x1000 + 0x18) 8 0x00] ∧
      (4 : Nat) ≠ 8 ∧ (pending fatalState (.write 0x1018 4 0x30)).host = [.write 0x1018 4 0x30] := by decide +kernel

theorem test_witness_FatalState :
    (exhausted.fatal = false ∧ exhausted.keyed = true ∧ exhausted.cur = 16) ∧
      ((pending fatalState (.write 0x1018 8 0x50)).fatal = true ∧
        (pending fatalState (.write 0x1018 8 0x50)).host = [.write (0x1000 + 0x18) 8 0x50]) ∧
      (pending fatalState (.write 0x1000 8 5)).host = [.write (0x1000 + 0x00) 8 5] ∧
      (pending fatalState (.read 0x1010 8)).host = [.read (0x1000 + Reg.offset .status) 8] ∧
      (nextOr fatalState (step (pending fatalState .reset))).fatal = false := by decide +kernel

theorem test_witness_CommandsKeepOperandAndSchedule : isNext (exec .xform (keyedBy .encrypt 0)) = true := by rfl

/-- A command that ends in an error, and one that ends in OK and produces no result. -/
theorem test_witness_CommandsKeepResultAndCursor :
    isNext (exec (.ffunc 3) State.reset) = true ∧ (after (.ffunc 3) State.reset).err ≠ .ok ∧
      producesResult .rkrewind = false := by decide +kernel

/-- A keyed state that meets the invariant, with a step to take. -/
theorem test_witness_StepKeepsTheInvariant :
    (pending fatalState (.read 0x1010 8)).Inv ∧ isNext (step (pending fatalState (.read 0x1010 8))) = true := by
  refine ⟨⟨by decide, by decide +kernel, fun _ => ⟨0x133457799BBCDFF1, by decide +kernel, rfl⟩, by decide +kernel, ?_⟩, by rfl⟩
  exact fun _ => .inl rfl

theorem test_witness_ReachableStatesMeetR37 :
    isNext (Host.Core.run core 1 { State.reset with host := [.write 0x18 8 0x40] }) = true := by rfl

theorem test_witness_UnkeyedScheduleIsUnobservable : State.reset.keyed = false := by decide

/-- Two engines with a turn each. -/
theorem test_witness_EnginesAreIndependent :
    (Platform.mk [State.reset, { State.reset with desBase := 0x20 }] [0, 1]).wf = true ∧ (0 : Nat) ≠ 1 ∧
      (Platform.mk [State.reset, { State.reset with desBase := 0x20 }] [0, 1]).step =
        .next ⟨[State.reset, { State.reset with desBase := 0x20 }], [1]⟩ := by
  refine ⟨by decide, by decide, by rfl⟩

end Sys2Proof.Tests
end

section
/-! PROOF. The fields of the STATUS word (R25, R32). -/

namespace Sys2Proof.Machine

/-- The fields of STATUS side by side (R25). It is `statusWord` at the sum of the fields' widths, the form in which the
library's lemmas about `++` apply. -/
def State.statusFields (s : State) : BitVec (51 + 5 + 1 + 1 + 1 + 1 + 4) :=
  0#51 ++ BitVec.ofNat 5 s.cur.val ++ 0#1 ++ BitVec.ofBool s.fatal ++ s.dir.bit ++ BitVec.ofBool s.keyed ++ s.err.code

theorem statusWord_extractLsb' (s : State) (start len : Nat) :
    (statusWord s).extractLsb' start len = s.statusFields.extractLsb' start len := rfl

theorem statusWord_getLsbD (s : State) (i : Nat) : (statusWord s).getLsbD i = s.statusFields.getLsbD i := rfl

theorem Direction.bit_eq_ofBool (d : Direction) : d.bit = BitVec.ofBool (decide (d = .decrypt)) := by cases d <;> rfl

/-- CUR stands in bits 12:8: the six fields below it are dropped. -/
theorem statusWord_cur (s : State) : (statusWord s).extractLsb' 8 5 = BitVec.ofNat 5 s.cur.val := by
  rw [statusWord_extractLsb', State.statusFields]
  iterate 5 rw [BitVec.extractLsb'_append_eq_of_le (by decide)]
  exact BitVec.extractLsb'_append_eq_right

/-- Settles O10: each field is read off the concatenation of R25, the fields below it dropped. -/
theorem statusLayout : Obligations.StatusLayout := by
  intro s
  simp only [← BitVec.getLsbD_eq_getElem]
  refine ⟨?err, ?keyed, ?dir, ?fatal, ?bit7, ?cur, ?reserved⟩
  case err => exact BitVec.extractLsb'_append_eq_right
  case cur => rw [statusWord_cur, BitVec.toNat_ofNat, Nat.mod_eq_of_lt (by omega)]
  case reserved =>
    rw [statusWord_extractLsb', State.statusFields]
    iterate 6 rw [BitVec.extractLsb'_append_eq_of_le (by decide)]
    exact BitVec.extractLsb'_zero
  all_goals
    simp only [statusWord_getLsbD, State.statusFields, BitVec.getLsbD_append, Direction.bit_eq_ofBool]
    simp

end Sys2Proof.Machine
end

section
/-! PROOF. What a command can do to an engine that is not halted, said once, and the invariants of R37 along every run. -/

namespace Sys2Proof.Machine

/-! ## What a command can do -/

/-- The next states of command `i` at a state `s` that is not halted, with the guard of each. -/
inductive Effect (s : State) (i : Instr) : State → Prop
  /-- Nothing changes but the completion: CHKPAR, and every refusal that leaves the schedule (R147, R231). -/
  | completes (code : Err) : Effect s i (s.complete code)
  /-- A result in DOUT (R22). -/
  | delivers (v : Word) (hi : producesResult i = true) : Effect s i (s.deliver v)
  /-- LOADKEY with a parity-valid key (R148). -/
  | installs (d : Direction) (hi : i = .loadkeyE ∧ d = .encrypt ∨ i = .loadkeyD ∧ d = .decrypt)
      (hp : parityOk s.din = true) : Effect s i (s.install (buildSchedule s.din) d).succeed
  /-- LOADKEY with a key that fails parity (R149). -/
  | unkeys (hi : i = .loadkeyE ∨ i = .loadkeyD) (hp : parityOk s.din = false) :
      Effect s i (s.unkey.complete .invalidKey)
  /-- RKNEXT before the end of the traversal (R152). -/
  | advances (v : Word) (hi : i = .rknext) (hk : s.keyed = true) (hc : s.cur.val < 16) :
      Effect s i ({ s with cur := ⟨s.cur.val + 1, by omega⟩ }.deliver v)
  /-- RKNEXT on an exhausted traversal (R152, R236). -/
  | exhausts (hi : i = .rknext) (hk : s.keyed = true) (hc : s.cur = 16) :
      Effect s i ({ s with fatal := true }.complete .scheduleExhausted)
  /-- RKREWIND (R153). -/
  | rewinds (hi : i = .rkrewind) (hk : s.keyed = true) : Effect s i { s with cur := 0 }.succeed

section
variable {s : State} {i : Instr}

theorem unlessHalted_effect {body : State → State} (hf : s.fatal = false) (h : Effect s i (body s)) :
    Effect s i (unlessHalted body s) := by
  rwa [unlessHalted_of_running hf]

theorem whenKeyed_effect {body : State → State} (h : s.keyed = true → Effect s i (body s)) :
    Effect s i (whenKeyed body s) := by
  obtain ⟨-, heq⟩ | ⟨hk, heq⟩ := whenKeyed_cases body s <;> rw [heq]
  · exact .completes .notKeyed
  · exact h hk

/-- A command that needs the key and delivers a result (XFORM, FFUNC). -/
theorem keyedResult_effect {f : State → Word} (hf : s.fatal = false) (hi : producesResult i = true) :
    Effect s i (unlessHalted (whenKeyed fun s => s.deliver (f s)) s) :=
  unlessHalted_effect hf (whenKeyed_effect fun _ => .delivers _ hi)

theorem permCommand_effect (hf : s.fatal = false) (hi : producesResult i = true) (t : TableId) :
    Effect s i (permCommand t s) :=
  unlessHalted_effect hf (.delivers _ hi)

theorem loadKey_effect (hf : s.fatal = false) {d : Direction}
    (hi : i = .loadkeyE ∧ d = .encrypt ∨ i = .loadkeyD ∧ d = .decrypt) : Effect s i (loadKey d s) := by
  refine unlessHalted_effect hf ?_
  split
  next hp => exact .installs d hi hp
  next hp => exact .unkeys (hi.imp And.left And.left) (Bool.eq_false_iff.2 hp)

theorem deliverNextKey_effect (hk : s.keyed = true) : Effect s .rknext (deliverNextKey s) := by
  unfold deliverNextKey
  split
  next hc => exact .advances _ rfl hk hc
  next hc => exact .exhausts rfl hk (Fin.ext (show s.cur.val = 16 by omega))

theorem exec_effect (hf : s.fatal = false) (i : Instr) : ∃ t, exec i s = .next t ∧ Effect s i t := by
  cases i with
  | chkpar =>
    refine ⟨_, rfl, unlessHalted_effect hf ?_⟩
    split <;> exact .completes _
  | loadkeyE => exact ⟨_, rfl, loadKey_effect hf (.inl ⟨rfl, rfl⟩)⟩
  | loadkeyD => exact ⟨_, rfl, loadKey_effect hf (.inr ⟨rfl, rfl⟩)⟩
  | xform => exact ⟨_, rfl, keyedResult_effect hf rfl⟩
  | rknext => exact ⟨_, rfl, unlessHalted_effect hf (whenKeyed_effect deliverNextKey_effect)⟩
  | rkrewind => exact ⟨_, rfl, unlessHalted_effect hf (whenKeyed_effect (.rewinds rfl))⟩
  | ffunc kidx => exact ⟨_, rfl, keyedResult_effect hf rfl⟩
  | sboxq mod =>
    refine ⟨_, rfl, unlessHalted_effect hf ?_⟩
    split
    · exact .completes .illegalCommand
    · exact .delivers _ rfl
  | permIp => exact ⟨_, rfl, permCommand_effect hf rfl .ip⟩
  | permFp => exact ⟨_, rfl, permCommand_effect hf rfl .fp⟩
  | permPc1 => exact ⟨_, rfl, permCommand_effect hf rfl .pc1⟩
  | permPc2 => exact ⟨_, rfl, permCommand_effect hf rfl .pc2⟩
  | permE => exact ⟨_, rfl, permCommand_effect hf rfl .e⟩
  | permP => exact ⟨_, rfl, permCommand_effect hf rfl .p⟩

end

/-- The inversion of `exec`: what a command did to an engine that was not halted. -/
theorem effect_of_exec {s t : State} {i : Instr} (hf : s.fatal = false) (h : exec i s = .next t) : Effect s i t := by
  obtain ⟨u, hu, he⟩ := exec_effect hf i
  rw [h] at hu
  cases hu
  exact he

/-! ## The invariants of R37 -/

/-- The invariants of R37 alone, at any base address and whatever RK holds. CUR <= 16 is the type of `State.cur`. -/
structure State.StatusInv (s : State) : Prop where
  /-- KEYED = 0 implies DIR = 0 and CUR = 0. -/
  unkeyed_rests : s.keyed = false → s.dir = .encrypt ∧ s.cur = 0
  /-- FATAL = 1 implies KEYED = 1 and CUR = 16. -/
  fatal_exhausted : s.fatal = true → s.keyed = true ∧ s.cur = 16
  /-- FATAL = 1 implies ERR is 2 or 5. -/
  fatal_err : s.fatal = true → s.err = .scheduleExhausted ∨ s.err = .halted

/-- While FATAL = 0 the invariants ask only that an unkeyed engine rests. -/
theorem State.StatusInv.of_running {s : State} (hf : s.fatal = false)
    (h : s.keyed = false → s.dir = .encrypt ∧ s.cur = 0) : s.StatusInv :=
  ⟨h, by simp [hf], by simp [hf]⟩

theorem Effect.statusInv {s t : State} {i : Instr} (hf : s.fatal = false) (hs : s.StatusInv) (h : Effect s i t) :
    t.StatusInv := by
  cases h with
  | completes code => exact .of_running hf hs.unkeyed_rests
  | delivers v => exact .of_running hf hs.unkeyed_rests
  | installs d => exact .of_running hf (by simp)
  | unkeys => exact .of_running hf (by simp)
  | advances v _ hk => exact .of_running hf (by simp [hk])
  | exhausts _ hk hc => exact ⟨by simp [hk], by simp [hk, hc], by simp⟩
  | rewinds _ hk => exact .of_running hf (by simp [hk])

theorem runCommand_statusInv {s t : State} {w : Word} (hs : s.StatusInv) (h : runCommand w s = .next t) :
    t.StatusInv := by
  cases hf : s.fatal with
  | true =>
    rw [runCommand_of_fatal hf] at h
    cases h
    exact ⟨hs.unkeyed_rests, hs.fatal_exhausted, fun _ => .inr rfl⟩
  | false =>
    obtain ⟨i, -, hi⟩ | ⟨-, -, rfl⟩ := runCommand_cases h
    · exact (effect_of_exec hf hi).statusInv hf hs
    · rw [illegalCommand_of_running hf]
      exact .of_running hf hs.unkeyed_rests

theorem perform_statusInv {e : HostEvent} {s t : State} (hs : s.StatusInv) (h : perform e s = .next t) :
    t.StatusInv := by
  have ⟨hrest, hexh, herr⟩ := hs
  obtain ⟨v, -, rfl⟩ | ⟨v, -, rfl⟩ | ⟨v, -, hcmd⟩ | ⟨r, -, rfl⟩ | ⟨-, rfl⟩ := perform_cases h
  · exact ⟨hrest, hexh, herr⟩
  · exact hs
  · exact runCommand_statusInv hs hcmd
  · exact ⟨hrest, hexh, herr⟩
  · exact .of_running rfl fun _ => ⟨rfl, rfl⟩

theorem step_statusInv {s t : State} (hs : s.StatusInv) (h : step s = .next t) : t.StatusInv := by
  cases hh : s.host with
  | nil =>
    rw [step_nil hh] at h
    cases h
    exact hs
  | cons e rest =>
    rw [step_cons hh] at h
    exact perform_statusInv (s := { s with host := rest })
      ⟨hs.unkeyed_rests, hs.fatal_exhausted, hs.fatal_err⟩ h

/-- A run that reaches a next state did so through a first step. -/
theorem run_succ_eq_next {M : Host.Core} {k : Nat} {s t : M.State} (h : M.run (k + 1) s = .next t) :
    ∃ u, M.step s = .next u ∧ M.run k u = .next t := by
  unfold Host.Core.run at h
  split at h
  next u hu => exact ⟨u, hu, h⟩
  all_goals cases h

/-- What every step keeps holds at the end of every run. -/
theorem run_keeps {P : State → Prop} (hstep : ∀ s t, P s → step s = .next t → P t) (k : Nat) :
    ∀ s t : State, P s → Host.Core.run core k s = .next t → P t := by
  induction k with
  | zero =>
    intro s t hs h
    cases h
    exact hs
  | succ k ih =>
    intro s t hs h
    obtain ⟨u, hu, hrun⟩ := run_succ_eq_next h
    exact ih u t (hstep s u hs hu) hrun

/-- Settles O50: the invariants of R37 hold at reset, at every base and RK, and every step keeps them. -/
theorem reachableStatesMeetR37 : Obligations.ReachableStatesMeetR37 := by
  intro base r program k t hrun
  have hreset : { State.reset with desBase := base, rk := r, host := program : State }.StatusInv :=
    .of_running rfl fun _ => ⟨rfl, rfl⟩
  obtain ⟨hrest, hexh, herr⟩ := run_keeps (fun _ _ => step_statusInv) k _ t hreset hrun
  have hcode : t.fatal = true → t.err.code = 2 ∨ t.err.code = 5 := fun hf =>
    (herr hf).imp (fun h => by rw [h]; rfl) (fun h => by rw [h]; rfl)
  exact ⟨by omega, hrest, hexh, hcode⟩

end Sys2Proof.Machine
end

section
/-! PROOF. The register window: which host accesses are performed, and what each of them does (R54 to R57). -/

namespace Sys2Proof.Machine

/-! ## What a step does with an access -/

/-- A read gives the host the register's value as it stands, and takes the event off the host's list (R56). -/
theorem step_read {s : State} {rest : List HostEvent} (r : Reg) (h : s.host = .read (s.desBase + r.offset) 8 :: rest) :
    step s = .next { s with host := rest, reads := s.reads ++ [readReg r s] } := by
  have hreg : readReg r { s with host := rest } = readReg r s := by cases r <;> rfl
  rw [step_cons h, ← hreg]
  exact perform_read { s with host := rest } r

theorem step_write {s : State} {v : Word} {rest : List HostEvent} (r : Reg)
    (h : s.host = .write (s.desBase + r.offset) 8 v :: rest) : step s = writeReg r v { s with host := rest } := by
  rw [step_cons h]
  exact perform_write { s with host := rest } r v

/-- A read to which the window gives no register is refused (R55). -/
theorem step_read_refused {s : State} {addr n : Nat} {rest : List HostEvent} (hw : windowReg s.desBase addr n = none)
    (h : s.host = .read addr n :: rest) : step s = .fault (.busError addr) := by
  simp only [step_cons h, perform, hw]

/-- A write to which the window gives no register is refused (R55). -/
theorem step_write_refused {s : State} {addr n : Nat} {v : Word} {rest : List HostEvent}
    (hw : windowReg s.desBase addr n = none) (h : s.host = .write addr n v :: rest) :
    step s = .fault (.busError addr) := by
  simp only [step_cons h, perform, hw]

/-- Settles O7: the read rule at each of the four registers. -/
theorem readReturnsRegister : Obligations.ReadReturnsRegister := fun _ _ =>
  ⟨step_read .din, step_read .dout, step_read .status, step_read .cmd⟩

/-- Settles O8: the write rule at each of the four registers. -/
theorem writesToTheWindow : Obligations.WritesToTheWindow := fun _ _ _ =>
  ⟨step_write .din, step_write .dout, step_write .status, step_write .cmd⟩

/-! ## Which accesses are performed -/

/-- R54's own conditions hold exactly when the window gives the access a register. -/
theorem admitted_iff_exists_windowReg {base addr n : Nat} :
    (n = 8 ∧ base ≤ addr ∧ addr < base + 0x20 ∧
      (addr - base = 0x00 ∨ addr - base = 0x08 ∨ addr - base = 0x10 ∨ addr - base = 0x18)) ↔
    ∃ r, windowReg base addr n = some r := by
  simp only [windowReg_eq_some_iff]
  constructor
  · rintro ⟨hn, hbase, -, h | h | h | h⟩
    · exact ⟨.din, hn, by simp only [Reg.offset]; omega⟩
    · exact ⟨.dout, hn, by simp only [Reg.offset]; omega⟩
    · exact ⟨.status, hn, by simp only [Reg.offset]; omega⟩
    · exact ⟨.cmd, hn, by simp only [Reg.offset]; omega⟩
  · rintro ⟨r, hn, rfl⟩
    cases r <;> simp only [Reg.offset] <;> omega

/-- No CMD write faults or is refused. -/
theorem runCommand_total (w : Word) (s : State) : ∃ t, runCommand w s = .next t := by
  cases hd : decode w with
  | ok i => simpa only [runCommand, hd] using exec_total i s
  | error e => exact ⟨illegalCommand s, by simp only [runCommand, hd]⟩

/-- No write to a register faults or is refused. -/
theorem writeReg_total (r : Reg) (v : Word) (s : State) : ∃ t, writeReg r v s = .next t := by
  cases r with
  | din | dout | status => exact ⟨_, rfl⟩
  | cmd => exact runCommand_total v s

/-- Settles O6: R54's conditions hold exactly when the window gives a register; with one, the access has a next state,
and with none it is refused. -/
theorem onlyAdmittedAccessesArePerformed : Obligations.OnlyAdmittedAccessesArePerformed := by
  intro s addr n v rest admitted
  have hadm : admitted ↔ ∃ r, windowReg s.desBase addr n = some r := admitted_iff_exists_windowReg
  cases hw : windowReg s.desBase addr n with
  | none =>
    have hno : ¬ admitted := by simp [hadm, hw]
    exact ⟨fun h => ⟨fun ha => absurd ha hno, fun _ => step_read_refused hw h⟩,
      fun h => ⟨fun ha => absurd ha hno, fun _ => step_write_refused hw h⟩⟩
  | some r =>
    have hyes : admitted := hadm.2 ⟨r, hw⟩
    obtain ⟨rfl, rfl⟩ := windowReg_eq_some hw
    obtain ⟨t, ht⟩ := writeReg_total r v { s with host := rest }
    exact ⟨fun h => ⟨fun _ => ⟨_, step_read r h⟩, fun hna => absurd hyes hna⟩,
      fun h => ⟨fun _ => ⟨t, (step_write r h).trans ht⟩, fun hna => absurd hyes hna⟩⟩

end Sys2Proof.Machine
end

section
/-! PROOF. The command values of R77: the decoder accepts the words of the well-formed commands and no other, and a CMD
write of any other value completes with ILLEGAL_COMMAND. -/

namespace Sys2Proof

/-! ## What each part of the decoder accepts -/

/-- A command whose one legal modifier is 0, in the row of OPC `opc` (R72). -/
theorem decodePlain_eq_ok {i j : Instr} {opc mod : BitVec 4} (hwf : i.wellFormed = true)
    (hi : commandWord opc 0 = encode i) (h : decodePlain i mod = .ok j) :
    j.wellFormed = true ∧ commandWord opc mod = encode j := by
  unfold decodePlain at h
  split at h
  next hm => cases h; exact ⟨hwf, hm ▸ hi⟩
  next => cases h

/-- The check of MOD[3:1] leaves the two modifiers of LOADKEY (R72). -/
theorem decodeLoadkey_eq_ite (mod : BitVec 4) :
    decodeLoadkey mod = if mod = 0 then .ok .loadkeyE else if mod = 1 then .ok .loadkeyD else .error .modifier := by
  revert mod; decide

theorem decodeLoadkey_eq_ok {i : Instr} {mod : BitVec 4} (h : decodeLoadkey mod = .ok i) :
    i.wellFormed = true ∧ commandWord 2 mod = encode i := by
  rw [decodeLoadkey_eq_ite] at h
  split at h
  next hm => cases h; exact ⟨rfl, hm ▸ rfl⟩
  next =>
    split at h
    next hm => cases h; exact ⟨rfl, hm ▸ rfl⟩
    next => cases h

theorem decodeSboxq_eq_ok {i : Instr} {mod : BitVec 4} (h : decodeSboxq mod = .ok i) :
    i.wellFormed = true ∧ commandWord 7 mod = encode i := by
  unfold decodeSboxq at h
  split at h
  next => cases h
  next hm => cases h; exact ⟨by simpa [Instr.wellFormed] using hm, rfl⟩

theorem decodePerm_eq_ok {i : Instr} {mod : BitVec 4} (h : decodePerm mod = .ok i) :
    i.wellFormed = true ∧ commandWord 8 mod = encode i := by
  unfold decodePerm at h
  split at h
  case h_7 => cases h
  all_goals
    next hm => cases h; exact ⟨rfl, congrArg (commandWord 8) (BitVec.eq_of_toNat_eq hm)⟩

/-- What the opcode map accepts is a well-formed command, and its word is the one of the two fields. -/
theorem decodeFields_eq_ok {i : Instr} {opc mod : BitVec 4} (h : decodeFields opc mod = .ok i) :
    i.wellFormed = true ∧ commandWord opc mod = encode i := by
  have hopc : ∀ n : BitVec 4, opc.toNat = n.toNat → opc = n := fun _ => BitVec.eq_of_toNat_eq
  unfold decodeFields at h
  split at h
  next ho => rw [hopc 1 ho]; exact decodePlain_eq_ok rfl rfl h
  next ho => rw [hopc 2 ho]; exact decodeLoadkey_eq_ok h
  next ho => rw [hopc 3 ho]; exact decodePlain_eq_ok rfl rfl h
  next ho => rw [hopc 4 ho]; exact decodePlain_eq_ok rfl rfl h
  next ho => rw [hopc 5 ho]; exact decodePlain_eq_ok rfl rfl h
  next ho => rw [hopc 6 ho]; cases h; exact ⟨rfl, rfl⟩
  next ho => rw [hopc 7 ho]; exact decodeSboxq_eq_ok h
  next ho => rw [hopc 8 ho]; exact decodePerm_eq_ok h
  next => cases h

/-! ## Decoder and encoder -/

/-- The decoder gives back every well-formed command from its own word. -/
theorem decode_encode {i : Instr} (h : i.wellFormed = true) : decode (encode i) = .ok i := by
  cases i with
  | chkpar => exact Laws.RoundTrip.chkpar h
  | loadkeyE => exact Laws.RoundTrip.loadkeyE h
  | loadkeyD => exact Laws.RoundTrip.loadkeyD h
  | xform => exact Laws.RoundTrip.xform h
  | rknext => exact Laws.RoundTrip.rknext h
  | rkrewind => exact Laws.RoundTrip.rkrewind h
  | ffunc kidx => exact Laws.RoundTrip.ffunc kidx h
  | sboxq mod => exact Laws.RoundTrip.sboxq mod h
  | permIp => exact Laws.RoundTrip.permIp h
  | permFp => exact Laws.RoundTrip.permFp h
  | permPc1 => exact Laws.RoundTrip.permPc1 h
  | permPc2 => exact Laws.RoundTrip.permPc2 h
  | permE => exact Laws.RoundTrip.permE h
  | permP => exact Laws.RoundTrip.permP h

/-- The decoder accepts a word only as the word of a well-formed command: its reserved bits are 0, so it is the command
word of its fields. -/
theorem decode_eq_ok {w : Word} {i : Instr} (h : decode w = .ok i) : i.wellFormed = true ∧ w = encode i := by
  unfold decode at h
  split at h
  next hr => simpa only [commandWord_fields hr] using decodeFields_eq_ok h
  next => cases h

theorem decode_eq_ok_iff {w : Word} {i : Instr} : decode w = .ok i ↔ i.wellFormed = true ∧ w = encode i :=
  ⟨decode_eq_ok, fun ⟨hwf, hw⟩ => hw ▸ decode_encode hwf⟩

/-! ## The values of R77 -/

/-- A command word as a number: OPC is the high digit of a byte in hexadecimal, MOD the low one (R70). -/
theorem commandWord_toNat (opc mod : BitVec 4) : (commandWord opc mod).toNat = 16 * opc.toNat + mod.toNat := by
  revert opc mod; decide +kernel

theorem eq_commandWord_iff {w : Word} {opc mod : BitVec 4} :
    w = commandWord opc mod ↔ w.toNat = 16 * opc.toNat + mod.toNat := by
  rw [← commandWord_toNat, BitVec.toNat_inj]

/-- SBOXQ is well formed exactly for the boxes 0 to 7 (R72). -/
theorem wellFormed_sboxq_iff (mod : BitVec 4) : (Instr.sboxq mod).wellFormed = true ↔ mod.toNat ≤ 7 := by
  revert mod; decide

/-- Settles O2: the listed pairs are the well-formed commands, each with the number of its word. -/
theorem legalCommandValues : Obligations.LegalCommandValues := by
  intro w i
  rw [decode_eq_ok_iff]
  cases i with
  | sboxq mod => simp [encode, eq_commandWord_iff, wellFormed_sboxq_iff]
  | _ => simp [encode, eq_commandWord_iff, Instr.wellFormed]

/-! ## The illegal values -/

/-- The fields of a CMD value that R72 to R75 make illegal: reserved bits, an OPC without a row, or a MOD outside the
row's legal values. -/
def IllegalFields (rsvd : BitVec 56) (opc mod : BitVec 4) : Prop :=
  rsvd ≠ 0 ∨ opc = 0 ∨ 9 ≤ opc.toNat ∨
    ((opc = 1 ∨ opc = 3 ∨ opc = 4 ∨ opc = 5) ∧ mod ≠ 0) ∨
    (opc = 2 ∧ 2 ≤ mod.toNat) ∨ (opc = 7 ∧ 8 ≤ mod.toNat) ∨ (opc = 8 ∧ 6 ≤ mod.toNat)

/-- The word of a well-formed command has none of the illegal forms. -/
theorem not_illegalFields_encode {i : Instr} (h : i.wellFormed = true) :
    ¬ IllegalFields (fieldRsvd (encode i)) (fieldOpc (encode i)) (fieldMod (encode i)) := by
  cases i with
  | sboxq mod =>
    have hm : mod.toNat < 8 := Nat.lt_succ_of_le ((wellFormed_sboxq_iff mod).1 h)
    simp [IllegalFields, encode, hm]
  | _ => simp [IllegalFields, encode]

theorem decode_of_illegalFields {w : Word} (h : IllegalFields (fieldRsvd w) (fieldOpc w) (fieldMod w)) :
    ∃ e, decode w = .error e := by
  cases hd : decode w with
  | error e => exact ⟨e, rfl⟩
  | ok i =>
    obtain ⟨hwf, rfl⟩ := decode_eq_ok hd
    exact absurd h (not_illegalFields_encode hwf)

end Sys2Proof

namespace Sys2Proof.Machine

theorem runCommand_of_error {w : Word} {e : Illegal} (hd : decode w = .error e) (s : State) :
    runCommand w s = .next (illegalCommand s) := by
  simp only [runCommand, hd]

/-- Settles O5: a word with illegal fields decodes to ILLEGAL, and the illegal command of an engine that is not halted
only completes. -/
theorem illegalCommandChangesOnlyErr : Obligations.IllegalCommandChangesOnlyErr := by
  intro s w rest hhost hf hw
  obtain ⟨e, hd⟩ := decode_of_illegalFields (w := w) hw
  calc step s = runCommand w { s with host := rest } := step_write .cmd hhost
    _ = .next (illegalCommand { s with host := rest }) := runCommand_of_error hd _
    _ = .next (State.complete { s with host := rest } .illegalCommand) :=
      congrArg Host.Outcome.next (illegalCommand_of_running hf)

end Sys2Proof.Machine
end

section
/-! PROOF. The permutations as bit copies (R100), their composition, and IP and FP as inverses (R104). -/

namespace Sys2Proof.Machine

/-- R100 as the rule counts: DES bit p of the output is DES bit T[p - 1] of the input. -/
theorem dbit_permute {n m p : Nat} {table : List Nat} (hlen : table.length = m) (hp : 1 ≤ p ∧ p ≤ m) (v : BitVec n) :
    dbit (permute m table v) p = dbit v (table.getD (p - 1) 0) := by
  have hbit : m - p < m := by omega
  have hentry : m - 1 - (m - p) = p - 1 := by omega
  rw [dbit, permute_getLsbD hlen, hentry]
  simp [hbit]

theorem permute_zero {n m : Nat} {table : List Nat} (hlen : table.length = m) : permute m table (0 : BitVec n) = 0 := by
  simpa using permute_xor hlen (0 : BitVec n) 0

theorem permute_allOnes {n m : Nat} {table : List Nat} (hlen : table.length = m) (hr : ∀ p ∈ table, 1 ≤ p ∧ p ≤ n) :
    permute m table (BitVec.allOnes n) = BitVec.allOnes m :=
  calc permute m table (BitVec.allOnes n) = permute m table (~~~(0 : BitVec n)) := by simp
    _ = ~~~permute m table 0 := permute_not hlen hr 0
    _ = ~~~0 := by rw [permute_zero hlen]
    _ = BitVec.allOnes m := by simp

/-- Settles O28: the spec lemma of `permute` at bit m - 1 - i; the constant inputs, because a permutation commutes with
XOR and with complement. -/
theorem permuteCopiesBits : Obligations.PermuteCopiesBits := by
  intro n m table hlen hr
  refine ⟨fun v i => ?_, permute_zero hlen, permute_allOnes hlen hr⟩
  have hbit : m - 1 - i.val < m := by omega
  have hentry : m - 1 - (m - 1 - i.val) = i.val := by omega
  rw [permute_getLsbD hlen, hentry, dbit]
  simp [hbit]

/-- Permuting twice is one permutation, whose table is the inner one read at the outer one's entries. -/
theorem permute_permute {n m k : Nat} {inner outer : List Nat} (hlen : inner.length = m)
    (hr : ∀ p ∈ outer, 1 ≤ p ∧ p ≤ m) (v : BitVec n) :
    permute k outer (permute m inner v) = permute k (outer.map fun p => inner.getD (p - 1) 0) v := by
  have hbits : outer.map (dbit (permute m inner v)) = (outer.map fun p => inner.getD (p - 1) 0).map (dbit v) := by
    rw [List.map_map]
    exact List.map_congr_left fun p hp => dbit_permute hlen (hr p hp) v
  exact congrArg (fun bits => (BitVec.ofBoolListBE bits).setWidth k) hbits

/-- The table 1, 2, ..., n changes nothing. -/
theorem permute_range' {n : Nat} (v : BitVec n) : permute n (List.range' 1 n) v = v := by
  apply BitVec.eq_of_getLsbD_eq
  intro i hi
  have hlt : n - 1 - i < n := by omega
  have hentry : n - (1 + (n - 1 - i)) = i := by omega
  rw [permute_getLsbD List.length_range']
  simp [dbit, hi, hlt, hentry]

/-- Settles O29: FP after IP, and IP after FP, is the permutation with the table 1, 2, ..., 64. -/
theorem fpInvertsIp : Obligations.FpInvertsIp := by
  have hfp : (tableFp.map fun p => tableIp.getD (p - 1) 0) = List.range' 1 64 := by decide
  have hip : (tableIp.map fun p => tableFp.getD (p - 1) 0) = List.range' 1 64 := by decide
  intro v
  constructor
  · rw [permute_permute tableIp_length tableFp_range, hfp, permute_range']
  · rw [permute_permute tableFp_length tableIp_range, hip, permute_range']

end Sys2Proof.Machine
end

section
/-! PROOF. The diagnostic commands SBOXQ and PERM (R120, R121). -/

namespace Sys2Proof

/-- A command value written as the value of its row plus MOD (R77) is the command word of the two fields. -/
theorem add_setWidth_eq_commandWord {v : Word} {opc : BitVec 4} (hv : v.toNat = 16 * opc.toNat) (mod : BitVec 4) :
    v + mod.setWidth 64 = commandWord opc mod := by
  rw [eq_commandWord_iff, BitVec.toNat_add, hv, BitVec.toNat_setWidth]
  omega

/-- MOD[3] is set exactly in the modifiers 8 to 15. -/
theorem mod_bit3_iff (mod : BitVec 4) : mod[3] = true ↔ 8 ≤ mod.toNat := by
  revert mod; decide

end Sys2Proof

namespace Sys2Proof.Machine

theorem exec_eq_of_fatal {s : State} (hf : s.fatal = true) (i : Instr) : exec i s = .next (s.complete .halted) := by
  obtain ⟨t, ht⟩ := exec_total i s
  rw [ht, exec_of_fatal hf ht]

/-- A CMD value with illegal fields, on an engine that is not halted, only completes (R72 to R75). -/
theorem runCommand_of_illegalFields {s : State} {opc mod : BitVec 4} (hf : s.fatal = false)
    (h : IllegalFields 0 opc mod) : runCommand (commandWord opc mod) s = .next (s.complete .illegalCommand) := by
  obtain ⟨e, he⟩ := decode_of_illegalFields (w := commandWord opc mod) (by simpa using h)
  rw [runCommand_of_error he, illegalCommand_of_running hf]

/-! ## SBOXQ -/

/-- BOX is MOD itself where MOD[3] = 0 (R72). -/
theorem boxOf_eq {mod : BitVec 4} {box : Fin 8} (h : mod.toNat = box.val) : boxOf mod = box := by
  apply Fin.ext
  simp [boxOf, h]

theorem operandSix_eq_setWidth (s : State) : operandSix s = s.din.setWidth 6 :=
  (BitVec.setWidth_eq_extractLsb' (by decide)).symm

theorem exec_sboxq_of_box {s : State} {mod : BitVec 4} {box : Fin 8} (hf : s.fatal = false)
    (hbox : mod.toNat = box.val) :
    exec (.sboxq mod) s = .next (s.deliver (zext64 (substitute box (s.din.setWidth 6)))) := by
  have hbit : ¬ mod[3] = true := by rw [mod_bit3_iff]; omega
  simp only [exec, execSboxq, unlessHalted_of_running hf, if_neg hbit, boxOf_eq hbox, operandSix_eq_setWidth]

theorem exec_sboxq_of_illegal {s : State} {mod : BitVec 4} (hf : s.fatal = false) (hmod : 8 ≤ mod.toNat) :
    exec (.sboxq mod) s = .next (s.complete .illegalCommand) := by
  have hbit : mod[3] = true := (mod_bit3_iff mod).2 hmod
  simp only [exec, execSboxq, unlessHalted_of_running hf, if_pos hbit, raiseErr_eq_complete]

/-- Settles O35: the two checks of R121's pseudocode give the three outcomes of the command, and the decoder refuses the
modifiers 8 to 15 before it. -/
theorem sboxqOutcome : Obligations.SboxqOutcome := by
  intro s mod
  rw [add_setWidth_eq_commandWord (opc := 7) rfl]
  exact ⟨fun hle => decode_eq_ok_iff.2 ⟨(wellFormed_sboxq_iff mod).2 hle, rfl⟩,
    fun hf hmod => runCommand_of_illegalFields hf (by simp [IllegalFields, hmod]),
    fun hf _ hbox => exec_sboxq_of_box hf hbox,
    fun hf hmod => exec_sboxq_of_illegal hf hmod,
    fun hf => exec_eq_of_fatal hf _⟩

/-! ## PERM -/

theorem TableId.inWidth_le (t : TableId) : t.inWidth ≤ 64 := by cases t <;> decide

theorem operandFor_eq_setWidth (t : TableId) (s : State) : operandFor t s = s.din.setWidth t.inWidth :=
  (BitVec.setWidth_eq_extractLsb' t.inWidth_le).symm

theorem permCommand_of_running {s : State} (hf : s.fatal = false) (t : TableId) :
    permCommand t s = s.deliver (zext64 (permute t.outWidth t.entries (s.din.setWidth t.inWidth))) := by
  rw [permCommand, unlessHalted_of_running hf, operandFor_eq_setWidth]

/-- PERM on an engine that is not halted, keyed or not, `i` the command of table `t` (R120). -/
theorem exec_perm_of_running {s : State} {i : Instr} {t : TableId} (hf : s.fatal = false)
    (hi : exec i s = .next (permCommand t s)) :
    exec i s = .next (s.deliver (zext64 (permute t.outWidth t.entries (s.din.setWidth t.inWidth)))) := by
  rw [hi, permCommand_of_running hf]

/-- Settles O36: each of the six commands is `permCommand` of its table, which delivers where the engine is not halted;
a 64-bit `setWidth` of DIN or of a result is that word itself. The decoder refuses every other table id. -/
theorem permOutcome : Obligations.PermOutcome := by
  refine ⟨rfl, rfl, rfl, rfl, rfl, rfl, fun s => ?_⟩
  refine ⟨fun hf tbl htbl => ?illegal, fun hf => ?delivers, fun hf i _ => ?halted⟩
  case illegal =>
    rw [add_setWidth_eq_commandWord (opc := 8) rfl]
    exact runCommand_of_illegalFields hf (by simp [IllegalFields, htbl])
  case delivers =>
    exact ⟨exec_perm_of_running hf (t := .ip) rfl, exec_perm_of_running hf (t := .fp) rfl,
      exec_perm_of_running hf (t := .pc1) rfl, exec_perm_of_running hf (t := .pc2) rfl,
      exec_perm_of_running hf (t := .e) rfl, exec_perm_of_running hf (t := .p) rfl⟩
  case halted => exact exec_eq_of_fatal hf i

end Sys2Proof.Machine
end

section
/-! PROOF. The key commands CHKPAR, LOADKEY, RKNEXT and RKREWIND (R147 to R149, R152, R153), and what changes
KEYED. -/

namespace Sys2Proof.Machine

/-! ## CHKPAR -/

theorem exec_chkpar_of_valid {s : State} (hf : s.fatal = false) (hp : parityOk s.din = true) :
    exec .chkpar s = .next (s.complete .ok) :=
  congrArg Host.Outcome.next ((unlessHalted_of_running hf _).trans (if_pos hp))

theorem exec_chkpar_of_invalid {s : State} (hf : s.fatal = false) (hp : parityOk s.din = false) :
    exec .chkpar s = .next (s.complete .invalidKey) :=
  congrArg Host.Outcome.next ((unlessHalted_of_running hf _).trans (if_neg (Bool.eq_false_iff.1 hp)))

/-- Settles O17: where the engine is not halted, the parity of DIN picks the code of the completion. -/
theorem chkparOutcome : Obligations.ChkparOutcome :=
  ⟨Laws.RoundTrip.chkpar rfl, fun _ =>
    ⟨exec_chkpar_of_valid, exec_chkpar_of_invalid, fun hf => exec_eq_of_fatal hf .chkpar⟩⟩

/-! ## LOADKEY -/

theorem loadKey_of_valid {s : State} (hf : s.fatal = false) (hp : parityOk s.din = true) (d : Direction) :
    loadKey d s = (s.install (buildSchedule s.din) d).succeed :=
  (unlessHalted_of_running hf _).trans (if_pos hp)

theorem loadKey_of_invalid {s : State} (hf : s.fatal = false) (hp : parityOk s.din = false) (d : Direction) :
    loadKey d s = s.unkey.complete .invalidKey :=
  (unlessHalted_of_running hf _).trans (if_neg (Bool.eq_false_iff.1 hp))

/-- Both directions of LOADKEY discard the schedule in the same way (R149). -/
theorem exec_loadkey_of_invalid {s : State} {i : Instr} (hf : s.fatal = false) (hp : parityOk s.din = false)
    (hi : i = .loadkeyE ∨ i = .loadkeyD) : exec i s = .next (s.unkey.complete .invalidKey) := by
  obtain rfl | rfl := hi
  · exact congrArg Host.Outcome.next (loadKey_of_invalid hf hp .encrypt)
  · exact congrArg Host.Outcome.next (loadKey_of_invalid hf hp .decrypt)

/-- Settles O18: the parity of DIN picks between the new schedule and none, and the decoder refuses the modifiers 2 to
15. -/
theorem loadkeyOutcome : Obligations.LoadkeyOutcome := by
  refine ⟨Laws.RoundTrip.loadkeyE rfl, Laws.RoundTrip.loadkeyD rfl, fun s => ?_⟩
  refine ⟨fun hf hp => ?valid, fun hf hp i hi => ?invalid, fun hf m hm => ?illegal, fun hf i _ => ?halted⟩
  case valid =>
    exact ⟨congrArg Host.Outcome.next (loadKey_of_valid hf hp .encrypt),
      congrArg Host.Outcome.next (loadKey_of_valid hf hp .decrypt)⟩
  case invalid => exact ⟨_, _, exec_loadkey_of_invalid hf hp hi⟩
  case illegal =>
    rw [add_setWidth_eq_commandWord (opc := 2) rfl]
    exact runCommand_of_illegalFields hf (by simp [IllegalFields, hm])
  case halted => exact exec_eq_of_fatal hf i

/-! ## What changes KEYED -/

/-- A command that changes KEYED is a LOADKEY, and KEYED then says whether the key passed parity (R148, R149). -/
theorem Effect.keyed_changes {s t : State} {i : Instr} (h : Effect s i t) (hne : t.keyed ≠ s.keyed) :
    (i = .loadkeyE ∨ i = .loadkeyD) ∧ t.keyed = parityOk s.din := by
  cases h with
  | installs d hi hp => exact ⟨hi.imp And.left And.left, hp.symm⟩
  | unkeys hi hp => exact ⟨hi, hp.symm⟩
  | completes | delivers | advances | exhausts | rewinds => exact absurd rfl hne

/-- A CMD value that changes KEYED is one of the two LOADKEY words. -/
theorem runCommand_keyed_changes {s t : State} {w : Word} (h : runCommand w s = .next t) (hne : t.keyed ≠ s.keyed) :
    (w = 0x20 ∨ w = 0x21) ∧ t.keyed = parityOk s.din := by
  cases hf : s.fatal with
  | true =>
    rw [runCommand_of_fatal hf] at h
    cases h
    exact absurd rfl hne
  | false =>
    obtain ⟨i, hd, hi⟩ | ⟨-, -, rfl⟩ := runCommand_cases h
    · obtain ⟨hload, hkeyed⟩ := (effect_of_exec hf hi).keyed_changes hne
      obtain ⟨-, rfl⟩ := decode_eq_ok hd
      exact ⟨hload.imp (congrArg encode) (congrArg encode), hkeyed⟩
    · rw [illegalCommand_of_running hf] at hne
      exact absurd rfl hne

/-- A host event that changes KEYED is the reset input or the CMD write of a LOADKEY word. -/
theorem perform_keyed_changes {e : HostEvent} {s t : State} (h : perform e s = .next t) (hne : t.keyed ≠ s.keyed) :
    (e = .reset ∧ t.keyed = false) ∨
      ((e = .write (s.desBase + 0x18) 8 0x20 ∨ e = .write (s.desBase + 0x18) 8 0x21) ∧
        t.keyed = parityOk s.din) := by
  obtain ⟨v, -, rfl⟩ | ⟨v, -, rfl⟩ | ⟨v, rfl, hcmd⟩ | ⟨r, -, rfl⟩ | ⟨he, rfl⟩ := perform_cases h
  case inr.inr.inl =>
    obtain ⟨hv, hkeyed⟩ := runCommand_keyed_changes hcmd hne
    exact .inr ⟨hv.imp (congrArg _) (congrArg _), hkeyed⟩
  case inr.inr.inr.inr => exact .inl ⟨he, rfl⟩
  all_goals exact absurd rfl hne

/-- A step that changes KEYED performs the reset input or the CMD write of a LOADKEY word (R149, R262). -/
theorem step_keyed_changes {s t : State} (h : step s = .next t) (hne : t.keyed ≠ s.keyed) :
    ∃ e rest, s.host = e :: rest ∧
      ((e = .reset ∧ t.keyed = false) ∨
        ((e = .write (s.desBase + 0x18) 8 0x20 ∨ e = .write (s.desBase + 0x18) 8 0x21) ∧
          t.keyed = parityOk s.din)) := by
  cases hh : s.host with
  | nil =>
    rw [step_nil hh] at h
    cases h
    exact absurd rfl hne
  | cons e rest =>
    rw [step_cons hh] at h
    exact ⟨e, rest, rfl, perform_keyed_changes (s := { s with host := rest }) h hne⟩

/-- Settles O19: a failed LOADKEY unkeys, the key guard refuses the four commands that need a key, and a step that sets
KEYED changes it, so it runs a LOADKEY whose key passed parity. -/
theorem failedLoadkeyUnkeys : Obligations.FailedLoadkeyUnkeys := by
  refine ⟨fun s i hf hp hi => ?unkeys, fun t j hf hk hj => exec_of_unkeyed hf hk hj, fun t u hk h hu => ?keys⟩
  case unkeys => exact ⟨_, exec_loadkey_of_invalid hf hp hi, rfl, hf, rfl, rfl, rfl⟩
  case keys =>
    have hne : u.keyed ≠ t.keyed := by simp [hk, hu]
    obtain ⟨e, rest, hh, ⟨-, hclear⟩ | ⟨he, hp⟩⟩ := step_keyed_changes h hne
    · exact absurd (hclear.symm.trans hu) Bool.false_ne_true
    · exact ⟨hp.symm.trans hu, rest, by simpa [hh] using he⟩

/-! ## The host-visible traversal -/

/-- A command that needs the key, on a keyed engine that is not halted, gets past both guards (R235). -/
theorem guards_of_keyed {s : State} (hf : s.fatal = false) (hk : s.keyed = true) (body : State → State) :
    unlessHalted (whenKeyed body) s = body s :=
  (unlessHalted_of_running hf _).trans (whenKeyed_of_keyed hk body)

theorem exec_rknext_of_lt {s : State} (hf : s.fatal = false) (hk : s.keyed = true) (hc : s.cur.val < 16) :
    exec .rknext s = .next ({ s with cur := ⟨s.cur.val + 1, by omega⟩ }.deliver
      (zext64 (keyForStep s.dir s.rk ⟨s.cur.val, hc⟩))) :=
  congrArg Host.Outcome.next ((guards_of_keyed hf hk deliverNextKey).trans (dif_pos hc))

theorem exec_rknext_of_exhausted {s : State} (hf : s.fatal = false) (hk : s.keyed = true) (hc : s.cur = 16) :
    exec .rknext s = .next ({ s with fatal := true }.complete .scheduleExhausted) :=
  congrArg Host.Outcome.next ((guards_of_keyed hf hk deliverNextKey).trans (dif_neg (by simp [hc])))

theorem exec_rkrewind_of_keyed {s : State} (hf : s.fatal = false) (hk : s.keyed = true) :
    exec .rkrewind s = .next { s with cur := 0 }.succeed :=
  congrArg Host.Outcome.next (guards_of_keyed hf hk _)

/-- Settles O25: behind the two guards, the cursor decides between the next key and exhaustion. -/
theorem rknextOutcome : Obligations.RknextOutcome :=
  ⟨Laws.RoundTrip.rknext rfl, fun _ =>
    ⟨exec_rknext_of_lt, exec_rknext_of_exhausted, fun hf hk => exec_of_unkeyed hf hk (.inr (.inl rfl)),
      fun hf => exec_eq_of_fatal hf .rknext⟩⟩

/-- Settles O26: behind the two guards, RKREWIND sets CUR to 0 whatever it was. -/
theorem rkrewindOutcome : Obligations.RkrewindOutcome :=
  ⟨Laws.RoundTrip.rkrewind rfl, fun _ =>
    ⟨exec_rkrewind_of_keyed, fun hf hk => exec_of_unkeyed hf hk (.inr (.inr (.inl rfl))),
      fun hf => exec_eq_of_fatal hf .rkrewind⟩⟩

end Sys2Proof.Machine
end

section
/-! PROOF. The parity of a key (R140), and the key bits that parity leaves out (R141). -/

namespace Sys2Proof.Machine

/-! ## Parity as an exclusive or -/

/-- A count is odd exactly when the exclusive or over what is counted is 1. -/
theorem countP_odd_eq_foldr_xor {α : Type} (p : α → Bool) (l : List α) :
    (l.countP p % 2 == 1) = l.foldr (fun x b => p x ^^ b) false := by
  induction l with
  | nil => rfl
  | cons x xs ih =>
    rw [List.countP_cons, List.foldr_cons, ← ih]
    cases p x with
    | false => simp
    | true => obtain h | h := Nat.mod_two_eq_zero_or_one (xs.countP p) <;> simp [Nat.add_mod, h]

/-- The exclusive or of bits 1 to 7 of byte b: what the parity bit, bit 0 of the byte, completes to 1. -/
def keyBitParity (k : Word) (b : Nat) : Bool :=
  k.getLsbD (8 * b + 1) ^^ k.getLsbD (8 * b + 2) ^^ k.getLsbD (8 * b + 3) ^^ k.getLsbD (8 * b + 4) ^^
    k.getLsbD (8 * b + 5) ^^ k.getLsbD (8 * b + 6) ^^ k.getLsbD (8 * b + 7)

theorem popcount_byteAt_odd (k : Word) (b : Nat) :
    (popcount (byteAt k b) % 2 == 1) = (k.getLsbD (8 * b) ^^ keyBitParity k b) := by
  have hrange : List.range 8 = [0, 1, 2, 3, 4, 5, 6, 7] := rfl
  rw [popcount, countP_odd_eq_foldr_xor, hrange]
  simp [byteAt, keyBitParity]

theorem parityOk_iff (k : Word) :
    parityOk k = true ↔ ∀ b < 8, (k.getLsbD (8 * b) ^^ keyBitParity k b) = true := by
  simp only [parityOk, List.all_eq_true, List.mem_range, popcount_byteAt_odd]

/-- Settles O16: `parityOk_iff`, the exclusive or bracketed from the left. -/
theorem parityIsOddPerByte : Obligations.ParityIsOddPerByte := by
  intro k
  rw [parityOk_iff, Fin.forall_iff]
  simp only [keyBitParity, Bool.xor_assoc]

/-! ## The 56 key bits -/

/-- Two keys agree on every bit but the least significant of each byte. -/
def SameKeyBits (k k' : Word) : Prop := ∀ i < 64, i % 8 ≠ 0 → k.getLsbD i = k'.getLsbD i

theorem keyMask_getLsbD : ∀ i < 64, (0xFEFEFEFEFEFEFEFE : Word).getLsbD i = decide (i % 8 ≠ 0) := by decide

theorem and_keyMask_eq_iff {k k' : Word} :
    k &&& 0xFEFEFEFEFEFEFEFE = k' &&& 0xFEFEFEFEFEFEFEFE ↔ SameKeyBits k k' := by
  constructor
  · intro h i hi h8
    have hbit := congrArg (·.getLsbD i) h
    simpa only [BitVec.getLsbD_and, keyMask_getLsbD i hi, h8, ne_eq, not_false_eq_true, decide_true, Bool.and_true]
      using hbit
  · intro h
    apply BitVec.eq_of_getLsbD_eq
    intro i hi
    rw [BitVec.getLsbD_and, BitVec.getLsbD_and, keyMask_getLsbD i hi]
    by_cases h8 : i % 8 = 0
    · simp [h8]
    · rw [h i hi h8]

theorem SameKeyBits.keyBitParity_eq {k k' : Word} (h : SameKeyBits k k') {b : Nat} (hb : b < 8) :
    keyBitParity k b = keyBitParity k' b := by
  have hbit : ∀ j, 1 ≤ j → j < 8 → k.getLsbD (8 * b + j) = k'.getLsbD (8 * b + j) := fun j h1 h8 =>
    h _ (by omega) (by omega)
  simp [keyBitParity, hbit]

/-- The key with the same 56 key bits whose bytes all have odd parity. -/
def withParity (k : Word) : Word :=
  BitVec.ofFnLE fun i => if i.val % 8 = 0 then !keyBitParity k (i.val / 8) else k.getLsbD i.val

theorem withParity_getLsbD (k : Word) {i : Nat} (hi : i < 64) :
    (withParity k).getLsbD i = if i % 8 = 0 then !keyBitParity k (i / 8) else k.getLsbD i := by
  simp [withParity, hi]

theorem sameKeyBits_withParity (k : Word) : SameKeyBits (withParity k) k := fun i hi h8 => by
  rw [withParity_getLsbD k hi, if_neg h8]

theorem parityOk_withParity (k : Word) : parityOk (withParity k) = true := by
  refine (parityOk_iff _).2 fun b hb => ?_
  rw [(sameKeyBits_withParity k).keyBitParity_eq hb, withParity_getLsbD k (by omega)]
  simp

/-- The key bits fix the parity bits of a parity-valid key. -/
theorem SameKeyBits.eq_of_parityOk {k k' : Word} (h : SameKeyBits k k') (hk : parityOk k = true)
    (hk' : parityOk k' = true) : k = k' := by
  apply BitVec.eq_of_getLsbD_eq
  intro i hi
  by_cases h8 : i % 8 = 0
  · obtain ⟨b, rfl⟩ : ∃ b, i = 8 * b := ⟨i / 8, by omega⟩
    have hb : b < 8 := by omega
    have hx : (k.getLsbD (8 * b) ^^ keyBitParity k' b) = (k'.getLsbD (8 * b) ^^ keyBitParity k' b) := by
      rw [← h.keyBitParity_eq hb, (parityOk_iff k).1 hk b hb, h.keyBitParity_eq hb, (parityOk_iff k').1 hk' b hb]
    exact Bool.xor_left_inj.1 hx
  · exact h i hi h8

end Sys2Proof.Machine
end

section
/-! PROOF. The key schedule by its recurrence (R142, R143), its last key (R151), and the bits it does
not read (R141). -/

namespace Sys2Proof.Machine

/-! ## Accumulated rotations -/

/-- The model's rotation is the library's, for an amount below the width. -/
theorem rol_eq_rotateLeft {w : Nat} (x : BitVec w) {a : Nat} (h : a < w) : rol x a = x.rotateLeft a := by
  rw [rol, BitVec.rotateLeft_def, Nat.mod_eq_of_lt h]

/-- Rotations one after another are one rotation by the sum of their amounts. -/
theorem foldl_rol {w : Nat} (amounts : List Nat) :
    ∀ x : BitVec w, amounts.sum ≤ w → amounts.foldl rol x = rol x amounts.sum := by
  induction amounts with
  | nil => intro x _; simp [rol, BitVec.ushiftRight_eq_zero]
  | cons a rest ih =>
    intro x h
    rw [List.sum_cons] at h
    rw [List.foldl_cons, ih _ (by omega), rol_rol x h, List.sum_cons]

theorem shifts_sum : shifts.sum = 28 := rfl

theorem shifts_lt : ∀ a ∈ shifts, a < 28 := by decide

/-- The sixteen rotations are a whole turn (R142). -/
theorem foldl_shifts (x : KeyHalf) : shifts.foldl rol x = x := by
  rw [foldl_rol shifts x (Nat.le_of_eq shifts_sum), shifts_sum, rol_width]

/-! ## The halves round by round -/

/-- A half after its first n rotations. -/
def rotatedHalf (x : KeyHalf) (n : Nat) : KeyHalf := (shifts.take n).foldl rol x

theorem rotatedHalf_zero (x : KeyHalf) : rotatedHalf x 0 = x := rfl

theorem rotatedHalf_sixteen (x : KeyHalf) : rotatedHalf x 16 = x := foldl_shifts x

theorem rotatedHalf_succ (x : KeyHalf) (i : Fin 16) :
    rotatedHalf x (i.val + 1) = (rotatedHalf x i.val).rotateLeft (shifts.getD i.val 0) := by
  have hi : i.val < shifts.length := i.isLt
  have hget : shifts.getD i.val 0 = shifts[i.val] := by simp [List.getD_eq_getElem?_getD, hi]
  rw [rotatedHalf, List.take_succ_eq_append_getElem hi, List.foldl_append, hget]
  exact rol_eq_rotateLeft _ (shifts_lt _ (List.getElem_mem hi))

/-- Round key i is PC-2 of the two halves after rotation i (R143). -/
theorem buildSchedule_eq_permute (k : Word) (i : Fin 16) :
    (buildSchedule k)[i] =
      permute 48 tablePc2 (rotatedHalf (keyHalves k).1 (i.val + 1) ++ rotatedHalf (keyHalves k).2 (i.val + 1)) :=
  (buildSchedule_getElem k i).trans (scheduleFrom_getElem shifts _ _ i.val i.isLt)

/-- Settles O20: C and D are the halves after each number of rotations. -/
theorem scheduleRecurrence : Obligations.ScheduleRecurrence := by
  refine ⟨shifts_sum, fun k => ⟨rotatedHalf (keyHalves k).1, rotatedHalf (keyHalves k).2, rotatedHalf_zero _,
    rotatedHalf_zero _, fun i => ?round, rotatedHalf_sixteen _, rotatedHalf_sixteen _⟩⟩
  case round => exact ⟨rotatedHalf_succ _ i, rotatedHalf_succ _ i, buildSchedule_eq_permute k i⟩

/-- C0 and D0 side by side are PC-1's output (R143). -/
theorem keyHalves_append (k : Word) : (keyHalves k).1 ++ (keyHalves k).2 = permute 56 tablePc1 k :=
  (BitVec.extractLsb'_append_extractLsb'_eq_extractLsb' rfl).trans BitVec.extractLsb'_eq_self

/-- Settles O21: the sixteen rotations are a whole turn, so the last key is PC-2 of the halves as PC-1 gave them. -/
theorem lastRoundKey : Obligations.LastRoundKey := by
  refine ⟨fun x => ?turn, fun k => ?last⟩
  case turn =>
    have heq : shifts.foldl (fun y a => y.rotateLeft a) x = shifts.foldl rol x :=
      List.foldl_ext _ _ _ fun y a ha => (rol_eq_rotateLeft y (shifts_lt a ha)).symm
    exact heq.trans (foldl_shifts x)
  case last =>
    calc (buildSchedule k)[15]
        = permute 48 tablePc2 (rotatedHalf (keyHalves k).1 16 ++ rotatedHalf (keyHalves k).2 16) :=
          buildSchedule_eq_permute k 15
      _ = permute 48 tablePc2 ((keyHalves k).1 ++ (keyHalves k).2) := by rw [rotatedHalf_sixteen, rotatedHalf_sixteen]
      _ = permute 48 tablePc2 (permute 56 tablePc1 k) := by rw [keyHalves_append]

/-! ## The parity bits -/

/-- No entry of PC-1 is the number of a parity bit. -/
theorem tablePc1_not_parity : ∀ p ∈ tablePc1, (64 - p) % 8 ≠ 0 := by decide

theorem SameKeyBits.permute_pc1_eq {k k' : Word} (h : SameKeyBits k k') :
    permute 56 tablePc1 k = permute 56 tablePc1 k' :=
  permute_congr fun p hp => h (64 - p) (by have := tablePc1_range p hp; omega) (tablePc1_not_parity p hp)

/-- The schedule reads its key through PC-1 alone (R143). -/
theorem buildSchedule_congr {k k' : Word} (h : permute 56 tablePc1 k = permute 56 tablePc1 k') :
    buildSchedule k = buildSchedule k' := by
  have hhalves : keyHalves k = keyHalves k' := by simp only [keyHalves, h]
  rw [← Vector.toList_inj, buildSchedule_toList, buildSchedule_toList, scheduleList, scheduleList, hhalves]

/-- Settles O22: PC-1 selects no parity bit, and the parity-valid key of given key bits is the one whose parity bits
complete every byte. -/
theorem parityBitsCarryNoKey : Obligations.ParityBitsCarryNoKey := by
  unfold Obligations.ParityBitsCarryNoKey
  simp only [and_keyMask_eq_iff]
  refine ⟨fun k k' h => ⟨h.permute_pc1_eq, buildSchedule_congr h.permute_pc1_eq⟩, fun k =>
    ⟨withParity k, ⟨sameKeyBits_withParity k, parityOk_withParity k⟩, fun k' ⟨hsame, hpar⟩ => ?unique⟩⟩
  case unique =>
    have hkeys : SameKeyBits k' (withParity k) := fun i hi h8 =>
      (hsame i hi h8).trans (sameKeyBits_withParity k i hi h8).symm
    exact hkeys.eq_of_parityOk hpar (parityOk_withParity k)

end Sys2Proof.Machine
end

section
/-! PROOF. The F-function by its steps (R180 to R186) and the command FFUNC (R188). -/

namespace Sys2Proof.Machine

/-! ## The steps of F -/

/-- S-box j + 1 fills bits 31 - 4j to 28 - 4j: the outputs to its right are dropped, and S1 has none to its left
(R185). -/
theorem substituteAll_extractLsb' (x : BitVec 48) (j : Fin 8) :
    (substituteAll x).extractLsb' (28 - 4 * j.val) 4 = substitute j (chunk x j) := by
  fin_cases j <;> simp (disch := decide) only [substituteAll, BitVec.extractLsb'_append_eq_of_le]
  · exact BitVec.extractLsb'_eq_self
  all_goals exact BitVec.extractLsb'_append_eq_right

/-- Settles O32: the value before P is the concatenation of the eight S-box outputs of the mixed value. -/
theorem roundFunctionSteps : Obligations.RoundFunctionSteps := fun h k =>
  ⟨substituteAll (permute 48 tableE h ^^^ k), rfl, substituteAll_extractLsb' _⟩

/-! ## FFUNC -/

theorem operandHalf_eq_setWidth (s : State) : operandHalf s = s.din.setWidth 32 :=
  (BitVec.setWidth_eq_extractLsb' (by decide)).symm

/-- Behind the two guards, FFUNC delivers F under the key of its own index (R188). -/
theorem exec_ffunc_of_keyed {s : State} (hf : s.fatal = false) (hk : s.keyed = true) (kidx : BitVec 4) :
    exec (.ffunc kidx) s = .next (s.deliver (zext64 (roundF (s.din.setWidth 32) s.rk[kidxOf kidx]))) := by
  rw [← operandHalf_eq_setWidth]
  exact congrArg Host.Outcome.next (guards_of_keyed hf hk _)

/-- Settles O34: the decoder accepts every index, and behind the two guards the command delivers. -/
theorem ffuncOutcome : Obligations.FfuncOutcome := by
  intro s kidx
  rw [add_setWidth_eq_commandWord (opc := 6) rfl]
  exact ⟨Laws.RoundTrip.ffunc kidx rfl, fun hf hk => exec_ffunc_of_keyed hf hk kidx,
    fun hf hk => exec_of_unkeyed hf hk (.inr (.inr (.inr ⟨kidx, rfl⟩))), fun hf => exec_eq_of_fatal hf _⟩

end Sys2Proof.Machine
end

section
/-! PROOF. The block transform by its recurrence (R200 to R204), its round trip (R206) and the command XFORM (R207,
R208). -/

namespace Sys2Proof.Machine

/-! ## The rounds -/

theorem keysInOrder_getElem (d : Direction) (rk : RoundKeys) (n : Fin 16) :
    (keysInOrder d rk)[n.val]'(by simp) = keyForStep d rk n := by
  simp [keysInOrder]

/-- The halves L and R after the first n rounds of an XFORM (R202). -/
def halvesAfter (b : Word) (d : Direction) (rk : RoundKeys) (n : Nat) : Half × Half :=
  feistel ((keysInOrder d rk).take n) ((permute 64 tableIp b).extractLsb' 32 32)
    ((permute 64 tableIp b).extractLsb' 0 32)

theorem halvesAfter_zero (b : Word) (d : Direction) (rk : RoundKeys) :
    halvesAfter b d rk 0 = ((permute 64 tableIp b).extractLsb' 32 32, (permute 64 tableIp b).extractLsb' 0 32) := rfl

theorem halvesAfter_succ (b : Word) (d : Direction) (rk : RoundKeys) (n : Fin 16) :
    halvesAfter b d rk (n.val + 1) =
      ((halvesAfter b d rk n.val).2,
        (halvesAfter b d rk n.val).1 ^^^ roundF (halvesAfter b d rk n.val).2 (keyForStep d rk n)) := by
  have hn : n.val < (keysInOrder d rk).length := by simp
  rw [halvesAfter, List.take_succ_eq_append_getElem hn, feistel_append, keysInOrder_getElem]
  rfl

/-- The keys of an XFORM are sixteen, so sixteen rounds are all of them (R202, R203). -/
theorem processBlock_eq_halvesAfter (b : Word) (d : Direction) (rk : RoundKeys) :
    processBlock b d rk = permute 64 tableFp ((halvesAfter b d rk 16).2 ++ (halvesAfter b d rk 16).1) := by
  rw [halvesAfter, List.take_of_length_le (Nat.le_of_eq (keysInOrder_length d rk))]
  rfl

/-- Settles O37: L and R are the halves after each number of rounds. -/
theorem blockTransformRecurrence : Obligations.BlockTransformRecurrence := fun b d rk =>
  ⟨fun n => (halvesAfter b d rk n).1, fun n => (halvesAfter b d rk n).2,
    congrArg Prod.fst (halvesAfter_zero b d rk), congrArg Prod.snd (halvesAfter_zero b d rk),
    fun n => ⟨congrArg Prod.fst (halvesAfter_succ b d rk n), congrArg Prod.snd (halvesAfter_succ b d rk n)⟩,
    processBlock_eq_halvesAfter b d rk⟩

/-! ## The round trip -/

/-- The two directions draw the same keys in opposite orders (R150). -/
theorem keysInOrder_decrypt_eq_reverse (rk : RoundKeys) :
    keysInOrder .decrypt rk = (keysInOrder .encrypt rk).reverse := by
  have hrev : ∀ n : Fin 16, 15 - n = n.rev := by decide
  rw [keysInOrder, keysInOrder, ← List.map_reverse, List.finRange_reverse, List.map_map]
  exact List.map_congr_left fun n _ => by simp [hrev]

/-- FP and the next transform's IP cancel (R104), so the halves one ends with, exchanged, are those the next one starts
from (R201, R203). -/
theorem halves_of_preOutput (l r : Half) :
    (permute 64 tableIp (permute 64 tableFp (r ++ l))).extractLsb' 32 32 = r ∧
      (permute 64 tableIp (permute 64 tableFp (r ++ l))).extractLsb' 0 32 = l := by
  have hcancel : permute 64 tableIp (permute 64 tableFp (r ++ l)) = r ++ l := (fpInvertsIp _).2
  rw [hcancel]
  exact ⟨BitVec.extractLsb'_append_eq_left, BitVec.extractLsb'_append_eq_right⟩

theorem halves_append (v : Word) : v.extractLsb' 32 32 ++ v.extractLsb' 0 32 = v :=
  (BitVec.extractLsb'_append_extractLsb'_eq_extractLsb' rfl).trans BitVec.extractLsb'_eq_self

/-- A transform that draws the keys in the reverse order runs the rounds backwards, between an FP and an IP that cancel
(R206). -/
theorem processBlock_processBlock {d d' : Direction} {rk : RoundKeys}
    (hkeys : keysInOrder d' rk = (keysInOrder d rk).reverse) (b : Word) :
    processBlock (processBlock b d rk) d' rk = b := by
  have hrounds := feistel_reverse (keysInOrder d rk) ((permute 64 tableIp b).extractLsb' 32 32)
    ((permute 64 tableIp b).extractLsb' 0 32)
  rw [processBlock, processBlock, hkeys]
  simp only [(halves_of_preOutput _ _).1, (halves_of_preOutput _ _).2, hrounds]
  rw [halves_append]
  exact (fpInvertsIp b).1

/-- Settles O38: each direction draws the other's keys in the reverse order. -/
theorem blockRoundTrip : Obligations.BlockRoundTrip := fun b rk =>
  ⟨processBlock_processBlock (keysInOrder_decrypt_eq_reverse rk) b,
    processBlock_processBlock (by rw [keysInOrder_decrypt_eq_reverse, List.reverse_reverse]) b⟩

/-! ## XFORM -/

/-- Behind the two guards, XFORM delivers the transform of DIN under DIR and RK (R207). -/
theorem exec_xform_of_keyed {s : State} (hf : s.fatal = false) (hk : s.keyed = true) :
    exec .xform s = .next (s.deliver (processBlock s.din s.dir s.rk)) :=
  congrArg Host.Outcome.next (guards_of_keyed hf hk _)

/-- Settles O39: behind the two guards, the command delivers. -/
theorem xformOutcome : Obligations.XformOutcome :=
  ⟨Laws.RoundTrip.xform rfl, fun _ =>
    ⟨exec_xform_of_keyed, fun hf hk => exec_of_unkeyed hf hk (.inl rfl), fun hf => exec_eq_of_fatal hf .xform⟩⟩

/-- A delivery writes DOUT, ERR and the history of completions, and nothing else (R208). -/
theorem State.deliver_eq_with (s : State) (v : Word) :
    s.deliver v = { s with dout := (s.deliver v).dout, err := (s.deliver v).err,
                           completions := s.completions ++ [(s.deliver v).err] } := rfl

/-- Settles O40: DIN, DIR and RK are all that the delivered value reads. -/
theorem xformIsIndependentOfTheRest : Obligations.XformIsIndependentOfTheRest := by
  intro s s' hf hf' hk hk' hdin hdir hrk
  refine ⟨_, _, exec_xform_of_keyed hf hk, exec_xform_of_keyed hf' hk', ?dout, ?err, State.deliver_eq_with s _⟩
  case dout => rw [State.deliver_dout, State.deliver_dout, hdin, hdir, hrk]
  case err => rw [State.deliver_err, State.deliver_err]

end Sys2Proof.Machine
end

section
/-! PROOF. The order in which a CMD write reports its error conditions (R235), and the fatal state (R236). -/

namespace Sys2Proof.Machine

/-! ## The code of a command -/

/-- The first of a command's own error conditions that holds, in the order of R235. -/
def ownCode (i : Instr) (s : State) : Err :=
  if needsKey i && !s.keyed then .notKeyed
  else if checksParity i && !parityOk s.din then .invalidKey
  else if i = .rknext ∧ s.cur = 16 then .scheduleExhausted
  else .ok

/-- The first error condition of a CMD write that holds, in the order of R235. -/
def cmdCode (w : Word) (s : State) : Err :=
  if s.fatal then .halted
  else match decode w with
    | .error _ => .illegalCommand
    | .ok i => ownCode i s

section
variable {s : State} {i : Instr}

/-- The four commands that need the key (R231). -/
theorem eq_of_needsKey (h : needsKey i = true) :
    i = .xform ∨ i = .rknext ∨ i = .rkrewind ∨ ∃ k, i = .ffunc k := by
  cases i with
  | xform => exact .inl rfl
  | rknext => exact .inr (.inl rfl)
  | rkrewind => exact .inr (.inr (.inl rfl))
  | ffunc k => exact .inr (.inr (.inr ⟨k, rfl⟩))
  | _ => cases h

theorem exec_err_of_unkeyed (hf : s.fatal = false) (hi : needsKey i = true) (hk : s.keyed = false) :
    ∃ t, exec i s = .next t ∧ t.err = .notKeyed :=
  ⟨_, exec_of_unkeyed hf hk (eq_of_needsKey hi), rfl⟩

theorem exec_err_of_invalid (hf : s.fatal = false) (hi : checksParity i = true) (hp : parityOk s.din = false) :
    ∃ t, exec i s = .next t ∧ t.err = .invalidKey := by
  cases i with
  | chkpar => exact ⟨_, exec_chkpar_of_invalid hf hp, rfl⟩
  | loadkeyE => exact ⟨_, exec_loadkey_of_invalid hf hp (.inl rfl), rfl⟩
  | loadkeyD => exact ⟨_, exec_loadkey_of_invalid hf hp (.inr rfl), rfl⟩
  | _ => cases hi

/-- A command none of whose error conditions holds completes with OK. -/
theorem exec_err_of_clear (hf : s.fatal = false) (hwf : i.wellFormed = true) (hk : needsKey i = true → s.keyed = true)
    (hp : checksParity i = true → parityOk s.din = true) (hc : i = .rknext → s.cur ≠ 16) :
    ∃ t, exec i s = .next t ∧ t.err = .ok := by
  cases i with
  | chkpar => exact ⟨_, exec_chkpar_of_valid hf (hp rfl), rfl⟩
  | loadkeyE => exact ⟨_, congrArg Host.Outcome.next (loadKey_of_valid hf (hp rfl) .encrypt), rfl⟩
  | loadkeyD => exact ⟨_, congrArg Host.Outcome.next (loadKey_of_valid hf (hp rfl) .decrypt), rfl⟩
  | xform => exact ⟨_, exec_xform_of_keyed hf (hk rfl), rfl⟩
  | rknext =>
    have hlt : s.cur.val < 16 := Fin.val_lt_last (hc rfl)
    exact ⟨_, exec_rknext_of_lt hf (hk rfl) hlt, rfl⟩
  | rkrewind => exact ⟨_, exec_rkrewind_of_keyed hf (hk rfl), rfl⟩
  | ffunc kidx => exact ⟨_, exec_ffunc_of_keyed hf (hk rfl) kidx, rfl⟩
  | sboxq mod =>
    have hbox : mod.toNat < 8 := Nat.lt_succ_of_le ((wellFormed_sboxq_iff mod).1 hwf)
    exact ⟨_, exec_sboxq_of_box (box := ⟨mod.toNat, hbox⟩) hf rfl, rfl⟩
  | permIp => exact ⟨_, exec_perm_of_running hf (t := .ip) rfl, rfl⟩
  | permFp => exact ⟨_, exec_perm_of_running hf (t := .fp) rfl, rfl⟩
  | permPc1 => exact ⟨_, exec_perm_of_running hf (t := .pc1) rfl, rfl⟩
  | permPc2 => exact ⟨_, exec_perm_of_running hf (t := .pc2) rfl, rfl⟩
  | permE => exact ⟨_, exec_perm_of_running hf (t := .e) rfl, rfl⟩
  | permP => exact ⟨_, exec_perm_of_running hf (t := .p) rfl, rfl⟩

theorem exec_err (hf : s.fatal = false) (hwf : i.wellFormed = true) :
    ∃ t, exec i s = .next t ∧ t.err = ownCode i s := by
  unfold ownCode
  split
  next hkey =>
    obtain ⟨hi, hk⟩ : needsKey i = true ∧ s.keyed = false := by simpa using hkey
    exact exec_err_of_unkeyed hf hi hk
  next hkey =>
    have hk : needsKey i = true → s.keyed = true := by simpa using hkey
    split
    next hpar =>
      obtain ⟨hi, hp⟩ : checksParity i = true ∧ parityOk s.din = false := by simpa using hpar
      exact exec_err_of_invalid hf hi hp
    next hpar =>
      have hp : checksParity i = true → parityOk s.din = true := by simpa using hpar
      split
      next hend =>
        obtain ⟨rfl, hc⟩ := hend
        exact ⟨_, exec_rknext_of_exhausted hf (hk rfl) hc, rfl⟩
      next hend => exact exec_err_of_clear hf hwf hk hp fun hi hc => hend ⟨hi, hc⟩

end

/-! ## The code of a CMD write -/

theorem runCommand_of_ok {w : Word} {i : Instr} (hd : decode w = .ok i) (s : State) : runCommand w s = exec i s := by
  simp only [runCommand, hd]

theorem runCommand_err (w : Word) (s : State) : ∃ t, runCommand w s = .next t ∧ t.err = cmdCode w s := by
  unfold cmdCode
  cases hf : s.fatal with
  | true => exact ⟨_, runCommand_of_fatal hf w, rfl⟩
  | false =>
    cases hd : decode w with
    | error e =>
      rw [runCommand_of_error hd, illegalCommand_of_running hf]
      exact ⟨_, rfl, rfl⟩
    | ok i =>
      rw [runCommand_of_ok hd]
      exact exec_err hf (decode_eq_ok hd).1

/-- Settles O44: at CMD the step is the command, whose code is `cmdCode`; no register takes a write of another width. -/
theorem errorPriority : Obligations.ErrorPriority := by
  refine ⟨fun s w rest hhost => ?command, fun s addr n w rest hn hhost => ?refused⟩
  case command =>
    rw [step_write .cmd hhost]
    exact runCommand_err w { s with host := rest }
  case refused => exact step_write_refused (windowReg_eq_none_iff.2 fun _ hadm => hn hadm.1) hhost

/-! ## The fatal state -/

/-- Of the host's events only the reset input takes the engine out of the fatal state. -/
theorem perform_fatal_cleared {e : HostEvent} {s t : State} (hf : s.fatal = true) (h : perform e s = .next t)
    (ht : t.fatal = false) : e = .reset := by
  have hkept : t.fatal ≠ s.fatal := by simp [hf, ht]
  obtain ⟨v, -, rfl⟩ | ⟨v, -, rfl⟩ | ⟨v, -, hcmd⟩ | ⟨r, -, rfl⟩ | ⟨he, -⟩ := perform_cases h
  case inr.inr.inl =>
    rw [runCommand_of_fatal hf] at hcmd
    cases hcmd
    exact absurd rfl hkept
  case inr.inr.inr.inr => exact he
  all_goals exact absurd rfl hkept

theorem step_fatal_cleared {s t : State} (hf : s.fatal = true) (h : step s = .next t) (ht : t.fatal = false) :
    ∃ rest, s.host = .reset :: rest := by
  cases hhost : s.host with
  | nil =>
    rw [step_nil hhost] at h
    cases h
    exact absurd (hf.symm.trans ht) (by decide)
  | cons e rest =>
    rw [step_cons hhost] at h
    exact ⟨rest, congrArg (· :: rest) (perform_fatal_cleared (s := { s with host := rest }) hf h ht)⟩

/-- Settles O45: RKNEXT at the end of the traversal enters the state, the first check of every command answers HALTED in
it, the window goes on serving DIN writes and reads, and of the host's events only reset clears FATAL. -/
theorem fatalState : Obligations.FatalState := by
  refine ⟨fun s hf hk hc => ?entry, fun s w rest hf hhost => ?halted, fun s v rest _ => step_write .din,
    fun s r rest _ => step_read r, fun s t => step_fatal_cleared⟩
  case entry => exact ⟨_, exec_rknext_of_exhausted hf hk hc, rfl, rfl⟩
  case halted => exact (step_write .cmd hhost).trans (runCommand_of_fatal (s := { s with host := rest }) hf w)

end Sys2Proof.Machine
end

section
/-! PROOF. The reset input, and what only it can undo (R260, R262). -/

namespace Sys2Proof.Machine

/-- STATUS reads 0 when each of its fields has its reset value (R25, R260). -/
theorem statusWord_eq_zero {s : State} (herr : s.err = .ok) (hkeyed : s.keyed = false) (hdir : s.dir = .encrypt)
    (hfatal : s.fatal = false) (hcur : s.cur = 0) : statusWord s = 0 := by
  rw [statusWord, herr, hkeyed, hdir, hfatal, hcur]
  rfl

/-- The reset input resets the engine, and takes the event off the host's list (R260). -/
theorem step_reset {s : State} {rest : List HostEvent} (h : s.host = .reset :: rest) :
    step s = .next (State.resetEngine { s with host := rest }) := step_cons h

/-- Settles O12: `State.resetEngine` gives every field but RK its reset value. -/
theorem resetInput : Obligations.ResetInput := fun _ _ hhost =>
  ⟨_, step_reset hhost, rfl, rfl, rfl, rfl, rfl, rfl, rfl, statusWord_eq_zero rfl rfl rfl rfl rfl⟩

/-- Settles O15: of the host's events only reset clears FATAL, and only reset and the two LOADKEY words change KEYED. -/
theorem whatLeavesFatalAndChangesKeyed : Obligations.WhatLeavesFatalAndChangesKeyed := by
  refine fun s t h => ⟨fun hf ht => step_fatal_cleared hf h ht, fun hne => ?keyed⟩
  case keyed =>
    obtain ⟨e, rest, hhost, ⟨rfl, -⟩ | ⟨rfl | rfl, -⟩⟩ := step_keyed_changes h hne
    · exact .inl ⟨rest, hhost⟩
    · exact .inr (.inl ⟨rest, hhost⟩)
    · exact .inr (.inr ⟨rest, hhost⟩)

end Sys2Proof.Machine
end

section
/-! PROOF. The decoder and the encoder as inverses (R70 to R77), the CMD write of a legal word (R57, R76), and the idle
engine (R16, R246). -/

namespace Sys2Proof.Machine

/-- Settles O1: the decoder gives back every well-formed command from its own word, and accepts no other word. -/
theorem decodeEncodeAgree : Obligations.DecodeEncodeAgree := fun _ _ => decode_eq_ok_iff

/-- Settles O3: each word is the encoding of its command. -/
theorem writtenWordsDecode : Obligations.WrittenWordsDecode :=
  ⟨decode_encode (i := .chkpar) rfl, decode_encode (i := .loadkeyD) rfl, decode_encode (i := .xform) rfl,
    decode_encode (i := .rknext) rfl, decode_encode (i := .ffunc 15) rfl, decode_encode (i := .sboxq 7) rfl,
    decode_encode (i := .permP) rfl⟩

/-- Settles O4: the write reaches CMD, and a CMD write of a word that decodes is the command. -/
theorem stepRunsDecodedCommand : Obligations.StepRunsDecodedCommand := fun _ _ _ _ hhost hd =>
  (step_write .cmd hhost).trans (runCommand_of_ok hd _)

/-- Settles O9: a step takes the host's oldest event, and there is none. -/
theorem idleHoldsState : Obligations.IdleHoldsState := fun _ => step_nil

end Sys2Proof.Machine
end

section
/-! PROOF. What every command does and leaves alone (R20 to R31, R230), and the invariant of every step (R9, R27, R37). -/

namespace Sys2Proof.Machine

/-! ## The effect of every command -/

/-- HALTED is a completion, so `Effect` describes what a command did to any engine, halted or not. -/
theorem exec_inversion {s t : State} {i : Instr} (h : exec i s = .next t) : Effect s i t := by
  cases hf : s.fatal with
  | true =>
    rw [exec_of_fatal hf h]
    exact .completes .halted
  | false => exact effect_of_exec hf h

/-- A CMD write only completes, or does what its command does. -/
theorem runCommand_inversion {s t : State} {w : Word} (h : runCommand w s = .next t) :
    (∃ code, t = s.complete code) ∨ ∃ i, Effect s i t := by
  obtain ⟨i, -, hi⟩ | ⟨-, -, rfl⟩ := runCommand_cases h
  · exact .inr ⟨i, exec_inversion hi⟩
  · obtain ⟨-, heq⟩ | ⟨-, heq⟩ := unlessHalted_cases (fun s => s.raiseErr .illegalCommand) s
    · exact .inl ⟨.halted, heq⟩
    · exact .inl ⟨.illegalCommand, heq⟩

/-- Whatever a command does, it records one code, the one in STATUS.ERR (R26, R233). -/
theorem Effect.completions {s t : State} {i : Instr} (h : Effect s i t) :
    t.completions = s.completions ++ [t.err] := by
  cases h <;> rfl

/-- Settles O43: a CMD value always has a next state, reached by a bare completion or by a command's effect. -/
theorem everyCommandCompletes : Obligations.EveryCommandCompletes := by
  intro w s
  obtain ⟨t, ht⟩ := runCommand_total w s
  refine ⟨t, ht, ?_⟩
  obtain ⟨code, rfl⟩ | ⟨i, hi⟩ := runCommand_inversion ht
  · rfl
  · exact hi.completions

/-! ## Frames -/

section
variable {s t : State} {i : Instr}

/-- No command touches DIN, the base address or the host's side. -/
theorem Effect.operand_frame (h : Effect s i t) :
    t.din = s.din ∧ t.desBase = s.desBase ∧ t.host = s.host ∧ t.reads = s.reads := by
  cases h <;> exact ⟨rfl, rfl, rfl, rfl⟩

/-- Only the two LOADKEYs write RK, KEYED and DIR, or draw a free value. -/
theorem Effect.schedule_frame (h : Effect s i t) (hE : i ≠ .loadkeyE) (hD : i ≠ .loadkeyD) :
    t.rk = s.rk ∧ t.keyed = s.keyed ∧ t.dir = s.dir ∧ t.freeCount = s.freeCount := by
  cases h with
  | installs d hi => exact (hi.elim (hE ·.1) (hD ·.1)).elim
  | unkeys hi => exact (hi.elim hE hD).elim
  | completes | delivers | advances | exhausts | rewinds => exact ⟨rfl, rfl, rfl, rfl⟩

/-- A command that leaves a new DOUT is one that produces a result, and it completed with OK (R22). -/
theorem Effect.dout_frame (h : Effect s i t) (hno : t.err ≠ .ok ∨ producesResult i = false) : t.dout = s.dout := by
  cases h with
  | delivers v hi => simp [hi] at hno
  | advances v hi => simp [hi, producesResult] at hno
  | completes | installs | unkeys | exhausts | rewinds => rfl

/-- Only RKNEXT changes FATAL (R30). -/
theorem Effect.fatal_frame (h : Effect s i t) (hi : i ≠ .rknext) : t.fatal = s.fatal := by
  cases h with
  | exhausts hnext => exact absurd hnext hi
  | completes | delivers | installs | unkeys | advances | rewinds => rfl

/-- Only LOADKEY, RKNEXT and RKREWIND change CUR (R31). -/
theorem Effect.cur_frame (h : Effect s i t) (hE : i ≠ .loadkeyE) (hD : i ≠ .loadkeyD) (hnext : i ≠ .rknext)
    (hrewind : i ≠ .rkrewind) : t.cur = s.cur := by
  cases h with
  | installs d hi => exact (hi.elim (hE ·.1) (hD ·.1)).elim
  | unkeys hi => exact (hi.elim hE hD).elim
  | advances v hi => exact absurd hi hnext
  | rewinds hi => exact absurd hi hrewind
  | completes | delivers | exhausts => rfl

end

/-- Settles O46: the frames of a command's effect for DIN and the host's side, and for the schedule. -/
theorem commandsKeepOperandAndSchedule : Obligations.CommandsKeepOperandAndSchedule := by
  intro i s t h
  have he := exec_inversion h
  obtain ⟨hdin, hbase, hhost, hreads⟩ := he.operand_frame
  exact ⟨hdin, hbase, hhost, hreads, he.schedule_frame⟩

/-- Settles O47: the frames of a command's effect for DOUT, FATAL and CUR. -/
theorem commandsKeepResultAndCursor : Obligations.CommandsKeepResultAndCursor := fun _ _ _ h =>
  ⟨(exec_inversion h).dout_frame, (exec_inversion h).fatal_frame, (exec_inversion h).cur_frame⟩

/-! ## The invariant -/

/-- What `State.Inv` asks beyond R37: the aligned base (R9), and what KEYED says of RK (R27). -/
structure State.SetupInv (s : State) : Prop where
  /-- DES_BASE is a multiple of 32. -/
  base_aligned : s.desBase % 32 = 0
  /-- KEYED = 1 only when RK holds the schedule of a parity-valid master key. -/
  keyed_schedule : s.keyed = true → ∃ k : Word, parityOk k = true ∧ s.rk = buildSchedule k

theorem State.inv_iff (s : State) : s.Inv ↔ s.StatusInv ∧ s.SetupInv :=
  ⟨fun h => ⟨⟨h.unkeyed_rests, h.fatal_exhausted, h.fatal_err⟩, ⟨h.base_aligned, h.keyed_schedule⟩⟩,
    fun ⟨hstatus, hsetup⟩ => ⟨hsetup.base_aligned, hstatus.unkeyed_rests, hsetup.keyed_schedule,
      hstatus.fatal_exhausted, hstatus.fatal_err⟩⟩

/-- A command keeps the base, and leaves KEYED = 1 only where RK stays or takes the schedule of the key in DIN. -/
theorem Effect.setupInv {s t : State} {i : Instr} (hs : s.SetupInv) (h : Effect s i t) : t.SetupInv := by
  have ⟨hbase, hsched⟩ := hs
  cases h with
  | installs d hi hp => exact ⟨hbase, fun _ => ⟨s.din, hp, rfl⟩⟩
  | unkeys => exact ⟨hbase, fun hk => absurd hk Bool.false_ne_true⟩
  | completes | delivers | advances | exhausts | rewinds => exact ⟨hbase, hsched⟩

theorem perform_setupInv {e : HostEvent} {s t : State} (hs : s.SetupInv) (h : perform e s = .next t) :
    t.SetupInv := by
  have ⟨hbase, hsched⟩ := hs
  obtain ⟨v, -, rfl⟩ | ⟨v, -, rfl⟩ | ⟨v, -, hcmd⟩ | ⟨r, -, rfl⟩ | ⟨-, rfl⟩ := perform_cases h
  · exact ⟨hbase, hsched⟩
  · exact hs
  · obtain ⟨code, rfl⟩ | ⟨i, hi⟩ := runCommand_inversion hcmd
    · exact ⟨hbase, hsched⟩
    · exact hi.setupInv hs
  · exact ⟨hbase, hsched⟩
  · exact ⟨hbase, fun hk => absurd hk Bool.false_ne_true⟩

theorem step_setupInv {s t : State} (hs : s.SetupInv) (h : step s = .next t) : t.SetupInv := by
  cases hhost : s.host with
  | nil =>
    rw [step_nil hhost] at h
    cases h
    exact hs
  | cons e rest =>
    rw [step_cons hhost] at h
    exact perform_setupInv (s := { s with host := rest }) ⟨hs.base_aligned, hs.keyed_schedule⟩ h

/-- Settles O49: a step keeps R37's invariants, and it keeps the base and what KEYED says of RK. -/
theorem stepKeepsTheInvariant : Obligations.StepKeepsTheInvariant := by
  intro s t hs h
  obtain ⟨hstatus, hsetup⟩ := s.inv_iff.1 hs
  exact t.inv_iff.2 ⟨step_statusInv hstatus h, step_setupInv hsetup h⟩

/-- Settles O48: right after reset the base is 0, and KEYED, DIR, CUR and FATAL are 0. -/
theorem resetMeetsTheInvariant : Obligations.ResetMeetsTheInvariant := by
  refine State.reset.inv_iff.2 ⟨.of_running rfl fun _ => ⟨rfl, rfl⟩, ⟨rfl, fun hk => ?_⟩⟩
  exact absurd hk Bool.false_ne_true

end Sys2Proof.Machine
end

section
/-! PROOF. The two orders of the schedule (R150), and one host-visible traversal (R31, R152, R267). -/

namespace Sys2Proof.Machine

/-! ## Direction order -/

theorem keysInOrder_encrypt_eq_toList (rk : RoundKeys) : keysInOrder .encrypt rk = rk.toList :=
  List.ext_getElem (by simp) fun n h _ => keysInOrder_getElem .encrypt rk ⟨n, by simpa using h⟩

/-- Settles O24: Encrypt draws RK as it stands, and Decrypt draws the reverse of what Encrypt draws. -/
theorem directionOrdersTheKeys : Obligations.DirectionOrdersTheKeys := by
  refine fun rk n => ⟨keyForStep_encrypt rk n, fun m hm => ?mirror, keysInOrder_encrypt_eq_toList rk, ?reversed⟩
  case mirror =>
    obtain rfl : m = 15 - n := Fin.ext (hm.trans (Fin.sub_val_of_le (Fin.le_last n)).symm)
    exact keyForStep_decrypt rk n
  case reversed => rw [keysInOrder_decrypt_eq_reverse, keysInOrder_encrypt_eq_toList]

/-! ## A traversal -/

/-- A command repeated once more is the command at the end of the repetition. -/
theorem repeatCommand_succ {i : Instr} {n : Nat} {s t : State} (h : repeatCommand i n s = .next t) :
    repeatCommand i (n + 1) s = exec i t := by
  induction n generalizing s with
  | zero =>
    cases h
    obtain ⟨u, hu⟩ := exec_total i t
    simp only [repeatCommand, hu]
  | succ n ih =>
    obtain ⟨u, hu⟩ := exec_total i s
    rw [repeatCommand, hu] at h ⊢
    exact ih h

/-- The state `t` has n keys of the traversal behind it that the keyed engine `s` began at CUR = 0. -/
structure Traversed (s : State) (n : Nat) (t : State) : Prop where
  running : t.fatal = false
  keyed : t.keyed = true
  cur : t.cur.val = n
  dir : t.dir = s.dir
  rk : t.rk = s.rk

/-- RKNEXT after n keys delivers the key of step n. -/
theorem Traversed.rknext {s t : State} {n : Fin 16} (h : Traversed s n.val t) :
    ∃ u, exec .rknext t = .next u ∧ Traversed s (n.val + 1) u ∧ u.dout = (keyForStep s.dir s.rk n).setWidth 64 ∧
      u.err = .ok := by
  obtain ⟨hf, hk, hcur, hdir, hrk⟩ := h
  have hc : t.cur.val < 16 := hcur ▸ n.isLt
  have hn : (⟨t.cur.val, hc⟩ : Fin 16) = n := Fin.ext hcur
  refine ⟨_, exec_rknext_of_lt hf hk hc, ⟨hf, hk, congrArg (· + 1) hcur, hdir, hrk⟩, ?dout, rfl⟩
  case dout => rw [State.deliver_dout, hn, hdir, hrk, zext64]

/-- The traversal from a rewound cursor, up to its end. -/
theorem traversed_repeatCommand {s : State} (hf : s.fatal = false) (hk : s.keyed = true) (hc : s.cur = 0) :
    ∀ n ≤ 16, ∃ t, repeatCommand .rknext n s = .next t ∧ Traversed s n t := by
  intro n
  induction n with
  | zero => exact fun _ => ⟨s, rfl, hf, hk, by simp [hc], rfl, rfl⟩
  | succ n ih =>
    intro hn
    obtain ⟨t, ht, htrav⟩ := ih (by omega)
    obtain ⟨u, hu, hnext, -, -⟩ := Traversed.rknext (n := ⟨n, hn⟩) htrav
    exact ⟨u, (repeatCommand_succ ht).trans hu, hnext⟩

/-- The command that delivers the key of step n is RKNEXT number n + 1. -/
theorem repeatCommand_rknext_delivers {s : State} (hf : s.fatal = false) (hk : s.keyed = true) (hc : s.cur = 0)
    (n : Fin 16) : ∃ t, repeatCommand .rknext (n.val + 1) s = .next t ∧ Traversed s (n.val + 1) t ∧
      t.dout = (keyForStep s.dir s.rk n).setWidth 64 ∧ t.err = .ok := by
  obtain ⟨t, ht, htrav⟩ := traversed_repeatCommand hf hk hc n.val n.isLt.le
  obtain ⟨u, hu, hnext⟩ := htrav.rknext
  exact ⟨u, (repeatCommand_succ ht).trans hu, hnext⟩

/-- Settles O27: each RKNEXT delivers the next key until CUR = 16, where the next one is fatal. -/
theorem traversalDeliversEveryKeyOnce : Obligations.TraversalDeliversEveryKeyOnce := by
  intro s hf hk hc
  refine ⟨fun n => ?delivers, ?exhausts⟩
  case delivers =>
    obtain ⟨t, ht, htrav, hdout, herr⟩ := repeatCommand_rknext_delivers hf hk hc n
    exact ⟨t, ht, htrav.cur, hdout, herr, htrav.running, htrav.rk⟩
  case exhausts =>
    obtain ⟨t, ht, htrav, hdout, -⟩ := repeatCommand_rknext_delivers hf hk hc 15
    have hend : t.cur = 16 := Fin.ext htrav.cur
    exact ⟨_, (repeatCommand_succ ht).trans (exec_rknext_of_exhausted htrav.running htrav.keyed hend), rfl, rfl, hend,
      hdout⟩

end Sys2Proof.Machine
end

section
/-! PROOF. Complementation of F, of the rounds and of the schedule (R187, R200, V15), equal round keys (V16, V20), and
the weak keys (R146). -/

namespace Sys2Proof.Machine

/-! ## The round function -/

theorem roundF_not (h : Half) (k : RoundKey) : roundF (~~~h) (~~~k) = roundF h k := by
  apply roundF_congr
  rw [permute_not tableE_length tableE_range, ← BitVec.not_xor_left, ← BitVec.not_xor_right, BitVec.not_not]

/-- Settles O33: F reads only the mixed value, and complementing both sides of an exclusive or leaves it. -/
theorem roundFunctionComplement : Obligations.RoundFunctionComplement := ⟨fun _ _ _ _ => roundF_congr, roundF_not⟩

/-! ## The block transform -/

theorem feistel_not (keys : List RoundKey) :
    ∀ l r : Half, feistel (keys.map fun k => ~~~k) (~~~l) (~~~r) = (~~~(feistel keys l r).1, ~~~(feistel keys l r).2) := by
  induction keys with
  | nil => intro l r; rfl
  | cons k rest ih =>
    intro l r
    have hround : ~~~l ^^^ roundF (~~~r) (~~~k) = ~~~(l ^^^ roundF r k) := by rw [roundF_not, BitVec.not_xor_left]
    rw [List.map_cons, feistel_cons, hround, ih, feistel_cons]

theorem keyForStep_map (f : RoundKey → RoundKey) (d : Direction) (rk : RoundKeys) (n : Fin 16) :
    keyForStep d (rk.map f) n = f (keyForStep d rk n) := by
  cases d <;> simp

theorem keysInOrder_map (f : RoundKey → RoundKey) (d : Direction) (rk : RoundKeys) :
    keysInOrder d (rk.map f) = (keysInOrder d rk).map f := by
  simp [keysInOrder, keyForStep_map]

theorem extractLsb'_not_of_le {w start len : Nat} (h : start + len ≤ w) (x : BitVec w) :
    (~~~x).extractLsb' start len = ~~~x.extractLsb' start len := by
  apply BitVec.eq_of_getLsbD_eq
  intro i hi
  have hlt : start + i < w := by omega
  simp [hi, hlt]

theorem processBlock_not (b : Word) (d : Direction) (rk : RoundKeys) :
    processBlock (~~~b) d (rk.map fun k => ~~~k) = ~~~processBlock b d rk := by
  unfold processBlock
  simp only [permute_not tableIp_length tableIp_range, extractLsb'_not_of_le (show 32 + 32 ≤ 64 by decide),
    extractLsb'_not_of_le (show 0 + 32 ≤ 64 by decide), keysInOrder_map, feistel_not, ← BitVec.not_append]
  exact permute_not tableFp_length tableFp_range _

/-! ## The key schedule -/

theorem rol_not {w : Nat} (x : BitVec w) {a : Nat} (h : a ≤ w) : rol (~~~x) a = ~~~rol x a := by
  apply BitVec.eq_of_getLsbD_eq
  intro i hi
  have hsrc : (if i < a then i + (w - a) else i - a) < w := by split <;> omega
  rw [BitVec.getLsbD_not, rol_getLsbD _ h hi, rol_getLsbD _ h hi, BitVec.getLsbD_not]
  simp [hi, hsrc]

/-- The rotations of a half so far are one rotation, by at most a whole turn. -/
theorem rotatedHalf_eq_rol (x : KeyHalf) (n : Nat) :
    (shifts.take n).sum ≤ 28 ∧ rotatedHalf x n = rol x (shifts.take n).sum := by
  have hsum : (shifts.take n).sum ≤ 28 := (List.take_sublist n shifts).sum_le_sum (by simp)
  exact ⟨hsum, foldl_rol _ x hsum⟩

theorem rotatedHalf_not (x : KeyHalf) (n : Nat) : rotatedHalf (~~~x) n = ~~~rotatedHalf x n := by
  obtain ⟨hsum, hrol⟩ := rotatedHalf_eq_rol x n
  rw [hrol, (rotatedHalf_eq_rol _ n).2, rol_not x hsum]

theorem keyHalves_not (k : Word) : keyHalves (~~~k) = (~~~(keyHalves k).1, ~~~(keyHalves k).2) := by
  simp only [keyHalves, permute_not tablePc1_length tablePc1_range,
    extractLsb'_not_of_le (show 28 + 28 ≤ 56 by decide), extractLsb'_not_of_le (show 0 + 28 ≤ 56 by decide)]

theorem buildSchedule_not (k : Word) : buildSchedule (~~~k) = (buildSchedule k).map fun x => ~~~x := by
  apply Vector.ext
  intro i hi
  have hkey := buildSchedule_eq_permute (~~~k) ⟨i, hi⟩
  rw [keyHalves_not, rotatedHalf_not, rotatedHalf_not, ← BitVec.not_append, permute_not tablePc2_length tablePc2_range,
    ← buildSchedule_eq_permute k ⟨i, hi⟩] at hkey
  simpa using hkey

theorem keyBitParity_not (k : Word) {b : Nat} (hb : b < 8) : keyBitParity (~~~k) b = !keyBitParity k b := by
  have hbit : ∀ j < 8, (~~~k).getLsbD (8 * b + j) = !k.getLsbD (8 * b + j) := fun j hj => by
    have hlt : 8 * b + j < 64 := by omega
    simp [hlt]
  simp [keyBitParity, hbit]

theorem parityOk_not (k : Word) : parityOk (~~~k) = parityOk k := by
  rw [Bool.eq_iff_iff, parityOk_iff, parityOk_iff]
  refine forall₂_congr fun b hb => ?_
  have hlt : 8 * b < 64 := by omega
  simp [keyBitParity_not k hb, hlt]

/-- Settles O41: F does not see a complement of both its operands, so every round, and with it the transform, passes the
complement on; rotations and permutations move it along the schedule; and eight bits complemented keep their parity. -/
theorem complementationProperty : Obligations.ComplementationProperty :=
  ⟨processBlock_not, fun k => ⟨buildSchedule_not k, parityOk_not k⟩⟩

/-! ## Equal round keys -/

theorem keysInOrder_of_equal {rk : RoundKeys} (h : ∀ i : Fin 16, rk[i] = rk[0]) (d : Direction) :
    keysInOrder d rk = List.replicate 16 rk[0] := by
  have hkey : ∀ n : Fin 16, keyForStep d rk n = rk[0] := fun n => by cases d <;> exact h _
  have hmap : keysInOrder d rk = (List.finRange 16).map fun _ => rk[0] := List.map_congr_left fun n _ => hkey n
  rw [hmap, List.map_const', List.length_finRange]

/-- Settles O42: both directions draw the same key sixteen times, a list that is its own reverse. -/
theorem equalKeysMakeAnInvolution : Obligations.EqualKeysMakeAnInvolution := by
  intro b d d' rk h
  constructor
  · simp only [processBlock, keysInOrder_of_equal h]
  · exact processBlock_processBlock (by rw [keysInOrder_of_equal h, List.reverse_replicate]) b

/-! ## The weak keys -/

theorem rotatedHalf_zero_half (n : Nat) : rotatedHalf 0 n = 0 := by
  rw [(rotatedHalf_eq_rol 0 n).2]
  simp [rol]

theorem buildSchedule_zero (i : Fin 16) : (buildSchedule 0)[i] = 0 := by
  have hhalves : keyHalves 0 = (0, 0) := by simp only [keyHalves, permute_zero tablePc1_length]; rfl
  rw [buildSchedule_eq_permute, hhalves, rotatedHalf_zero_half]
  exact permute_zero tablePc2_length

/-- Settles O23: the first key is 0 but for its parity bits, which the schedule does not read, and the second is the
complement of the first. -/
theorem weakKeySchedules : Obligations.WeakKeySchedules := by
  have hzero : ∀ i : Fin 16, (buildSchedule 0x0101010101010101)[i] = 0 := by
    have hbits : buildSchedule 0x0101010101010101 = buildSchedule 0 := (parityBitsCarryNoKey.1 _ _ (by decide)).2
    exact hbits ▸ buildSchedule_zero
  have hcompl : (0xFEFEFEFEFEFEFEFE : Word) = ~~~0x0101010101010101 := by decide
  have hparity : parityOk 0x0101010101010101 = true := by decide
  refine ⟨hparity, ?parity, hzero, fun i => ?ones⟩
  case parity => rw [hcompl, parityOk_not, hparity]
  case ones =>
    rw [hcompl, buildSchedule_not, Fin.getElem_fin, Vector.getElem_map]
    exact congrArg (~~~·) (hzero i)

end Sys2Proof.Machine
end

section
/-! PROOF. The constants: the tables and S-boxes (R101, R118, R119), the codes of ERR (R26), the values at and after reset
(R20, R260), and the big-endian reading of a buffer (R52). -/

namespace Sys2Proof.Machine

/-! ## Tables -/

theorem TableId.entries_range (t : TableId) : ∀ p ∈ t.entries, 1 ≤ p ∧ p ≤ t.inWidth := by
  cases t with
  | ip => exact tableIp_range
  | fp => exact tableFp_range
  | pc1 => exact tablePc1_range
  | pc2 => exact tablePc2_range
  | e => exact tableE_range
  | p => exact tableP_range

theorem sboxes_shape :
    ∀ box ∈ sboxes, box.length = 4 ∧ ∀ row ∈ box, row.length = 16 ∧ row.Nodup ∧ ∀ x ∈ row, x ≤ 15 := by
  decide

/-- Settles O30: the lengths and ranges table by table, and the finite checks of the entries. -/
theorem tableShapes : Obligations.TableShapes :=
  ⟨fun t => ⟨t.entries_length, t.entries_range⟩, by decide, by decide, by decide, rfl, sboxes_shape⟩

/-- Settles O31: the 512 entries, each against its digit of the listing. -/
theorem sboxesMatchTheFlatListing : Obligations.SboxesMatchTheFlatListing := by
  unfold Obligations.SboxesMatchTheFlatListing
  decide +kernel

/-! ## Codes and reset values -/

/-- Settles O11: code by code. -/
theorem errorCodes : Obligations.ErrorCodes :=
  ⟨rfl, rfl, rfl, rfl, rfl, rfl, fun e => by cases e <;> decide⟩

/-- Settles O13: `State.resetEngine` writes no field of the parameter or of the host's side. -/
theorem resetInputFrame : Obligations.ResetInputFrame := fun _ _ hhost => ⟨_, step_reset hhost, rfl, rfl, rfl, rfl⟩

/-- Settles O14: each field of STATUS is 0 at reset, and the round keys are sixteen copies of 0. -/
theorem resetStateValues : Obligations.ResetStateValues := by
  refine ⟨?window, rfl, rfl, rfl, rfl, rfl, fun i => Vector.getElem_replicate i.isLt⟩
  case window =>
    have hstatus : readReg .status State.reset = 0 := statusWord_eq_zero rfl rfl rfl rfl rfl
    rw [State.window, hstatus]
    rfl

/-! ## Buffers -/

/-- Byte i of the buffer fills bits 63 - 8i to 56 - 8i of the block: the bytes to its right are dropped, and byte 0 has
none to its left. -/
theorem blockOfBytes_extractLsb' (b : Vector (BitVec 8) 8) (i : Fin 8) :
    (blockOfBytes b).extractLsb' (56 - 8 * i.val) 8 = b[i] := by
  fin_cases i <;> simp (disch := decide) only [blockOfBytes, BitVec.extractLsb'_append_eq_of_le]
  · exact BitVec.extractLsb'_eq_self
  all_goals exact BitVec.extractLsb'_append_eq_right

theorem bytesOfBlock_getElem (v : Word) (i : Fin 8) : (bytesOfBlock v)[i] = v.extractLsb' (56 - 8 * i.val) 8 := by
  fin_cases i <;> rfl

/-- A block is fixed by its eight bytes. -/
theorem eq_of_bytes_eq {v w : Word}
    (h : ∀ i : Fin 8, v.extractLsb' (56 - 8 * i.val) 8 = w.extractLsb' (56 - 8 * i.val) 8) : v = w := by
  apply BitVec.eq_of_getLsbD_eq
  intro j hj
  have hbyte := congrArg (·.getLsbD (j % 8)) (h ⟨7 - j / 8, by omega⟩)
  have hbit : 56 - 8 * (7 - j / 8) + j % 8 = j := by omega
  have hlt : j % 8 < 8 := by omega
  simpa [hbit, hlt] using hbyte

/-- Settles O53: the bytes of the block of a buffer are the buffer's, and a block is fixed by its bytes. -/
theorem buffersAreBigEndian : Obligations.BuffersAreBigEndian :=
  ⟨blockOfBytes_extractLsb', fun v => eq_of_bytes_eq fun i =>
    (blockOfBytes_extractLsb' _ i).trans (bytesOfBlock_getElem v i)⟩

end Sys2Proof.Machine
end

section
/-! PROOF. What RK holds while KEYED = 0 is not observable (R24, R261, I1). -/

namespace Sys2Proof.Machine

/-! ## Outcomes that differ in an unkeyed RK alone -/

/-- The same engine, but for RK. -/
def State.withRk (s : State) (r : RoundKeys) : State := { s with rk := r }

@[simp] theorem State.withRk_desBase (s : State) (r : RoundKeys) : (s.withRk r).desBase = s.desBase := rfl

/-- Two outcomes of an unkeyed engine and of the same engine with RK = r: they are one, or both engines went on, still
unkeyed and still the same but for RK. -/
def AlikeButRk (r : RoundKeys) (o o' : Host.Outcome State Fault Refusal) : Prop :=
  o' = o ∨ ∃ t : State, t.keyed = false ∧ o = .next t ∧ o' = .next (t.withRk r)

section
variable {s : State} {r : RoundKeys} {o o' : Host.Outcome State Fault Refusal}

theorem alikeButRk_complete (hk : s.keyed = false) {code : Err} (ho : o = .next (s.complete code))
    (ho' : o' = .next ((s.withRk r).complete code)) : AlikeButRk r o o' :=
  .inr ⟨s.complete code, hk, ho, ho'⟩

theorem alikeButRk_deliver (hk : s.keyed = false) {v : Word} (ho : o = .next (s.deliver v))
    (ho' : o' = .next ((s.withRk r).deliver v)) : AlikeButRk r o o' :=
  .inr ⟨s.deliver v, hk, ho, ho'⟩

/-- A LOADKEY, whichever the direction, overwrites RK or leaves it open: what RK held before is gone (R148, R149). -/
theorem loadKey_withRk (hf : s.fatal = false) (d : Direction) : loadKey d (s.withRk r) = loadKey d s := by
  cases hp : parityOk s.din with
  | true => exact (loadKey_of_valid (s := s.withRk r) hf hp d).trans (loadKey_of_valid hf hp d).symm
  | false => exact (loadKey_of_invalid (s := s.withRk r) hf hp d).trans (loadKey_of_invalid hf hp d).symm

theorem exec_perm_alikeButRk {i : Instr} {t : TableId} (hf : s.fatal = false) (hk : s.keyed = false)
    (hi : ∀ s, exec i s = .next (permCommand t s)) : AlikeButRk r (exec i s) (exec i (s.withRk r)) :=
  alikeButRk_deliver hk (exec_perm_of_running hf (hi s)) (exec_perm_of_running hf (hi _))

/-- An unkeyed command refuses before it reads RK, or writes all of it, or does not look at it. -/
theorem exec_alikeButRk (hk : s.keyed = false) (i : Instr) :
    AlikeButRk r (exec i s) (exec i (s.withRk r)) := by
  cases hf : s.fatal with
  | true => exact alikeButRk_complete hk (exec_eq_of_fatal hf i) (exec_eq_of_fatal (s := s.withRk r) hf i)
  | false =>
    have refuses (hi : needsKey i = true) : AlikeButRk r (exec i s) (exec i (s.withRk r)) :=
      alikeButRk_complete hk (exec_of_unkeyed hf hk (eq_of_needsKey hi)) (exec_of_unkeyed hf hk (eq_of_needsKey hi))
    cases i with
    | xform | rknext | rkrewind | ffunc => exact refuses rfl
    | loadkeyE => exact .inl (congrArg Host.Outcome.next (loadKey_withRk hf .encrypt))
    | loadkeyD => exact .inl (congrArg Host.Outcome.next (loadKey_withRk hf .decrypt))
    | chkpar =>
      cases hp : parityOk s.din with
      | true => exact alikeButRk_complete hk (exec_chkpar_of_valid hf hp) (exec_chkpar_of_valid hf hp)
      | false => exact alikeButRk_complete hk (exec_chkpar_of_invalid hf hp) (exec_chkpar_of_invalid hf hp)
    | sboxq mod =>
      by_cases hmod : 8 ≤ mod.toNat
      · exact alikeButRk_complete hk (exec_sboxq_of_illegal hf hmod) (exec_sboxq_of_illegal hf hmod)
      · exact alikeButRk_deliver hk (exec_sboxq_of_box (box := ⟨mod.toNat, Nat.lt_of_not_le hmod⟩) hf rfl)
          (exec_sboxq_of_box hf rfl)
    | permIp => exact exec_perm_alikeButRk (i := .permIp) (t := .ip) hf hk fun _ => rfl
    | permFp => exact exec_perm_alikeButRk (i := .permFp) (t := .fp) hf hk fun _ => rfl
    | permPc1 => exact exec_perm_alikeButRk (i := .permPc1) (t := .pc1) hf hk fun _ => rfl
    | permPc2 => exact exec_perm_alikeButRk (i := .permPc2) (t := .pc2) hf hk fun _ => rfl
    | permE => exact exec_perm_alikeButRk (i := .permE) (t := .e) hf hk fun _ => rfl
    | permP => exact exec_perm_alikeButRk (i := .permP) (t := .p) hf hk fun _ => rfl

end

/-! ## Steps and runs -/

theorem runCommand_alikeButRk {s : State} (hk : s.keyed = false) (w : Word) (r : RoundKeys) :
    AlikeButRk r (runCommand w s) (runCommand w (s.withRk r)) := by
  cases hd : decode w with
  | ok i =>
    rw [runCommand_of_ok hd, runCommand_of_ok hd]
    exact exec_alikeButRk hk i
  | error e =>
    rw [runCommand_of_error hd, runCommand_of_error hd]
    cases hf : s.fatal with
    | true =>
      exact alikeButRk_complete hk (congrArg _ (illegalCommand_of_fatal hf))
        (congrArg _ (illegalCommand_of_fatal hf))
    | false =>
      exact alikeButRk_complete hk (congrArg _ (illegalCommand_of_running hf))
        (congrArg _ (illegalCommand_of_running hf))

theorem writeReg_alikeButRk {s : State} (hk : s.keyed = false) (reg : Reg) (v : Word) (r : RoundKeys) :
    AlikeButRk r (writeReg reg v s) (writeReg reg v (s.withRk r)) := by
  cases reg with
  | din => exact .inr ⟨{ s with din := v }, hk, rfl, rfl⟩
  | dout | status => exact .inr ⟨s, hk, rfl, rfl⟩
  | cmd => exact runCommand_alikeButRk hk v r

/-- The window has no register through which RK is read (R51). -/
theorem readReg_withRk (reg : Reg) (s : State) (r : RoundKeys) : readReg reg (s.withRk r) = readReg reg s := by
  cases reg <;> rfl

theorem perform_alikeButRk {s : State} (hk : s.keyed = false) (e : HostEvent) (r : RoundKeys) :
    AlikeButRk r (perform e s) (perform e (s.withRk r)) := by
  cases e with
  | write addr nbytes v =>
    cases hw : windowReg s.desBase addr nbytes with
    | none => exact .inl (by simp [perform, hw])
    | some reg => simpa [perform, hw] using writeReg_alikeButRk hk reg v r
  | read addr nbytes =>
    cases hw : windowReg s.desBase addr nbytes with
    | none => exact .inl (by simp [perform, hw])
    | some reg =>
      refine .inr ⟨s.giveHost (readReg reg s), hk, by simp [perform, hw], ?_⟩
      simp only [perform, State.withRk_desBase, hw, readReg_withRk]
      rfl
  | reset => exact .inl rfl

theorem step_alikeButRk {s : State} (hk : s.keyed = false) (r : RoundKeys) :
    AlikeButRk r (step s) (step (s.withRk r)) := by
  cases hhost : s.host with
  | nil => exact .inr ⟨s, hk, step_nil hhost, step_nil hhost⟩
  | cons e rest =>
    rw [step_cons hhost, step_cons (s := s.withRk r) hhost]
    exact perform_alikeButRk (s := { s with host := rest }) hk e r

theorem sameToHost_refl (o : Host.Outcome State Fault Refusal) : sameToHost o o := by
  cases o with
  | next s => exact ⟨rfl, rfl, rfl⟩
  | fault q => exact rfl
  | refused q => exact rfl

/-- A run goes on from its first step, whichever state that step was taken in. -/
theorem run_succ_congr {M : Host.Core} {s s' : M.State} (h : M.step s' = M.step s) (k : Nat) :
    M.run (k + 1) s' = M.run (k + 1) s := by
  simp only [Host.Core.run, h]

theorem run_succ_of_step {M : Host.Core} {s t : M.State} (h : M.step s = .next t) (k : Nat) :
    M.run (k + 1) s = M.run k t := by
  simp only [Host.Core.run, h]

theorem run_withRk_sameToHost (k : Nat) :
    ∀ (s : State) (r : RoundKeys), s.keyed = false →
      sameToHost (Host.Core.run core k s) (Host.Core.run core k (s.withRk r)) := by
  induction k with
  | zero => exact fun s r _ => ⟨rfl, rfl, rfl⟩
  | succ k ih =>
    intro s r hk
    obtain hsame | ⟨t, ht, hs, hs'⟩ := step_alikeButRk hk r
    · rw [run_succ_congr (M := core) hsame]
      exact sameToHost_refl _
    · rw [run_succ_of_step (M := core) hs, run_succ_of_step (M := core) hs']
      exact ih t r ht

/-- Settles O51: the two runs go on unkeyed and equal but for RK, which no register shows, until a step makes them one or
stops them both. -/
theorem unkeyedScheduleIsUnobservable : Obligations.UnkeyedScheduleIsUnobservable := run_withRk_sameToHost

end Sys2Proof.Machine
end

section
/-! PROOF. The engines of a platform share nothing, and their turns commute (R59, R244). -/

namespace Sys2Proof.Machine

/-- What a turn does: nothing where it names no engine, and else one step of the engine it names. -/
theorem platform_step_cases {p q : Platform} {k : Nat} {rest : List Nat} (hturns : p.turns = k :: rest)
    (h : p.step = .next q) :
    (p.engines[k]? = none ∧ q = { p with turns := rest }) ∨
      ∃ s t, p.engines[k]? = some s ∧ step s = .next t ∧ q = { engines := p.engines.set k t, turns := rest } := by
  cases hk : p.engines[k]? with
  | none => exact .inl ⟨rfl, by simpa [Platform.step, hturns, hk] using h.symm⟩
  | some s =>
    cases hs : step s with
    | next t => exact .inr ⟨s, t, rfl, hs, by simpa [Platform.step, hturns, hk, hs] using h.symm⟩
    | fault r | refused r => simp [Platform.step, hturns, hk, hs] at h

/-- A turn is taken off the list, and no engine but its own changes. -/
theorem platform_step_frame {p q : Platform} {k : Nat} {rest : List Nat} (hturns : p.turns = k :: rest)
    (h : p.step = .next q) :
    q.turns = rest ∧ q.engines.length = p.engines.length ∧ ∀ j, j ≠ k → q.engines[j]? = p.engines[j]? := by
  obtain ⟨-, rfl⟩ | ⟨s, t, -, -, rfl⟩ := platform_step_cases hturns h
  · exact ⟨rfl, rfl, fun j _ => rfl⟩
  · exact ⟨rfl, List.length_set, fun j hj => List.getElem?_set_ne hj.symm⟩

/-- What a turn makes of its own engine depends on that engine alone, whatever the rest of the platform. -/
theorem platform_step_own {p p' q q' : Platform} {k : Nat} {rest rest' : List Nat} (hturns : p.turns = k :: rest)
    (hturns' : p'.turns = k :: rest') (h : p.step = .next q) (h' : p'.step = .next q')
    (hsame : p.engines[k]? = p'.engines[k]?) : q.engines[k]? = q'.engines[k]? := by
  obtain ⟨hk, rfl⟩ | ⟨s, t, hk, hs, rfl⟩ := platform_step_cases hturns h <;>
    obtain ⟨hk', rfl⟩ | ⟨s', t', hk', hs', rfl⟩ := platform_step_cases hturns' h'
  · exact hsame
  · simp [hk, hk'] at hsame
  · simp [hk, hk'] at hsame
  · obtain rfl : s = s' := by simpa [hk, hk'] using hsame
    obtain rfl : t = t' := by simpa [hs] using hs'
    obtain ⟨hlt, -⟩ := List.getElem?_eq_some_iff.1 hk
    obtain ⟨hlt', -⟩ := List.getElem?_eq_some_iff.1 hk'
    simp [hlt, hlt']

/-- Settles O52: the frame of a turn, and the two orders engine by engine: engine j moves from one state in both, engine k
likewise, and no other engine moves. -/
theorem enginesAreIndependent : Obligations.EnginesAreIndependent := by
  refine ⟨fun p q k rest => platform_step_frame, fun p j k rest p1 p2 q1 q2 hjk hp1 hp2 hq1 hq2 => ?commute⟩
  case commute =>
    obtain ⟨hp1t, -, hp1e⟩ := platform_step_frame rfl hp1
    obtain ⟨hp2t, -, hp2e⟩ := platform_step_frame hp1t hp2
    obtain ⟨hq1t, -, hq1e⟩ := platform_step_frame rfl hq1
    obtain ⟨hq2t, -, hq2e⟩ := platform_step_frame hq1t hq2
    have hengines : p2.engines = q2.engines := by
      apply List.ext_getElem?
      intro i
      by_cases hj : i = j
      · subst hj
        rw [hp2e i hjk]
        exact platform_step_own rfl hq1t hp1 hq2 (hq1e i hjk).symm
      · by_cases hk : i = k
        · subst hk
          rw [hq2e i hj]
          exact platform_step_own hp1t rfl hp2 hq1 (hp1e i hj)
        · rw [hp2e i hk, hp1e i hj, hq2e i hj, hq1e i hk]
    obtain ⟨p2e, p2t⟩ := p2
    obtain ⟨q2e, q2t⟩ := q2
    exact congrArg₂ Platform.mk hengines (hp2t.trans hq2t.symm)

end Sys2Proof.Machine
end
